-- ==== Sys2Proof/Word.lean ====
section
/-! DEFINITION. The fixed widths of RMC-CANID (00_scope.md R7) and the 8-byte array of a payload. -/
namespace Sys2Proof

/-- A data byte of a frame. -/
abbrev Byte := BitVec 8
/-- A 29-bit arbitration ID (R9, `ID_W`). -/
abbrev Id := BitVec 29
/-- A device ID, 0..255 (R97, `DEV_W`). -/
abbrev Dev := BitVec 8
/-- The argument field, ID bits 22..8 (R96, `ARG_W`). -/
abbrev Arg := BitVec 15
/-- A timeout or a transmission count, 32 bits (R27, R28). -/
abbrev Word := BitVec 32

/-- The 8-byte array `[b0, ..., b7]` of rules R10, R26 and R34; `b0` is index 0. -/
structure Bytes8 where
  b0 : Byte
  b1 : Byte
  b2 : Byte
  b3 : Byte
  b4 : Byte
  b5 : Byte
  b6 : Byte
  b7 : Byte
  deriving DecidableEq, Repr, Inhabited

/-- `[x]*8`. -/
def Bytes8.fill (x : Byte) : Bytes8 := ⟨x, x, x, x, x, x, x, x⟩

/-- Eight 0x00 bytes. -/
def Bytes8.zero : Bytes8 := Bytes8.fill 0

/-- The bytes in index order. -/
def Bytes8.toList (d : Bytes8) : List Byte := [d.b0, d.b1, d.b2, d.b3, d.b4, d.b5, d.b6, d.b7]

/-- The array whose byte at index i is `f i`. -/
def Bytes8.ofIndex (f : Nat → Byte) : Bytes8 := ⟨f 0, f 1, f 2, f 3, f 4, f 5, f 6, f 7⟩

/-- The byte at index i; 0x00 from index 8 on. -/
def Bytes8.get (d : Bytes8) (i : Nat) : Byte := d.toList.getD i 0

end Sys2Proof
end

