-- ==== Sys2Proof/Syntax.lean ====
section
/-! DEFINITION. The terms of RMC-CANID: command kinds, the 24 rows of spec/opcode_table.json as `Instr`, frames,
requests, the moves of the agents (00_scope.md R15), and the abstract form of requests and scripts (30_encoding.md
R110 to R112). -/
namespace Sys2Proof

/-- The eight command kinds (R2, R94); the index of each is `Kind.code` in Decode.lean. -/
inductive Kind where
  | ping | pageselect | lock | unlock | erase | write | read | finish
  deriving DecidableEq, Repr, Inhabited

/-- The three frame roles of R113: a command, a valid reply (`K.R`), an error reply (`K.E`). -/
inductive Role where
  | command | validReply | errorReply
  deriving DecidableEq, Repr, Inhabited

/-- One constructor per row of the opcode table (R113). A command is the request whose command ID it is; `K.R` and
`K.E` are the received frames of R149. Both operands are bit fields of the ID: `dev` bits 7..0, `arg` bits 22..8. -/
inductive Instr where
  | ping (dev : Dev) (arg : Arg)
  | pageselect (dev : Dev) (arg : Arg)
  | lock (dev : Dev) (arg : Arg)
  | unlock (dev : Dev) (arg : Arg)
  | erase (dev : Dev) (arg : Arg)
  | write (dev : Dev) (arg : Arg)
  | read (dev : Dev) (arg : Arg)
  | finish (dev : Dev) (arg : Arg)
  | pingR (dev : Dev) (arg : Arg)
  | pageselectR (dev : Dev) (arg : Arg)
  | lockR (dev : Dev) (arg : Arg)
  | unlockR (dev : Dev) (arg : Arg)
  | eraseR (dev : Dev) (arg : Arg)
  | writeR (dev : Dev) (arg : Arg)
  | readR (dev : Dev) (arg : Arg)
  | finishR (dev : Dev) (arg : Arg)
  | pingE (dev : Dev) (arg : Arg)
  | pageselectE (dev : Dev) (arg : Arg)
  | lockE (dev : Dev) (arg : Arg)
  | unlockE (dev : Dev) (arg : Arg)
  | eraseE (dev : Dev) (arg : Arg)
  | writeE (dev : Dev) (arg : Arg)
  | readE (dev : Dev) (arg : Arg)
  | finishE (dev : Dev) (arg : Arg)
  deriving DecidableEq, Repr, Inhabited

/-- The result of a TxSend (R67). -/
inductive TxResult where
  | ok | fail
  deriving DecidableEq, Repr, Inhabited

/-- A frame on the transport (R12). Its data length `dlc` is the number of its data bytes; R61 bounds it by 8
(`Frame.wellFormed`). -/
structure Frame where
  id : Id
  data : List Byte
  deriving DecidableEq, Repr, Inhabited

/-- A request on the channel REQ (R48): kind, device, argument, payload, and a timeout or none. -/
structure Request where
  kind : Kind
  dev : Dev
  arg : Arg
  data : Bytes8
  timeout : Option Word
  deriving DecidableEq, Repr, Inhabited

/-- A frame as the environment offers it at the model's boundary, in naturals (R237 b). -/
structure RawFrame where
  id : Nat
  dlc : Nat
  data : List Byte
  deriving DecidableEq, Repr, Inhabited

/-- A request as the client offers it at the model's boundary, in naturals (R105, R237 a). -/
structure RawRequest where
  kind : Nat
  dev : Nat
  arg : Nat
  data : Bytes8
  timeout : Option Nat
  deriving DecidableEq, Repr, Inhabited

/-- The block's four steps (R160). -/
inductive BlockStep where
  | accept | drain | send | poll
  deriving DecidableEq, Repr, Inhabited

/-- What a second user of the transport would do (R201, R237 c). -/
inductive TransportOp where
  | send | poll | flush
  deriving DecidableEq, Repr, Inhabited

/-- One move of one agent of R15; one step of the machine is one move. -/
inductive Move where
  /-- The block takes this step of its own. -/
  | block (b : BlockStep)
  /-- The transport's receive side: a frame arrives (R64). -/
  | arrive (f : RawFrame)
  /-- The transport: the next TxSend draws this result (R67, R112 `TXRESULT`). -/
  | txResult (r : TxResult)
  /-- The timebase: one tick (R170). -/
  | tick
  /-- The client presents a request and keeps it presented until ACCEPT (R48, R184, R200). -/
  | present (r : RawRequest)
  /-- The client writes a register of the view (R41, R49). -/
  | writeReg (index : Nat) (value : Word)
  /-- The client reads a register of the view (R41). -/
  | readReg (index : Nat)
  /-- The reference client starts a session (R209): device, image, and the client's parameters `PAGE_OFFSET` and
  `LAST_PAGE` (R7), `none` for the default. -/
  | session (dev : Nat) (image : List Byte) (pageOffset lastPage : Option Nat)
  /-- The reference client takes its next step (R208 to R217). -/
  | client
  /-- The reset agent: RESET (R260). -/
  | reset
  /-- A second user of the same transport (R201). -/
  | secondUser (op : TransportOp)
  deriving DecidableEq, Repr, Inhabited

/-- A request line of R110, after its text is read: an absent `arg`, `data` or `timeout` is `none`. -/
structure RequestLine where
  kind : Kind
  dev : Nat
  arg : Option Nat
  data : Option Bytes8
  timeout : Option Nat
  deriving DecidableEq, Repr, Inhabited

/-- The pseudo-instructions of R111. -/
inductive Pseudo where
  | pagesel (dev page : Nat)
  | erasepg (dev page : Nat)
  | writeat (dev off : Nat) (data : Bytes8)
  | writepos (dev pos : Nat) (data : Bytes8)
  deriving DecidableEq, Repr, Inhabited

/-- One line of a script (R110 to R112). -/
inductive Line where
  | request (r : RequestLine)
  | pseudo (p : Pseudo)
  | step (b : BlockStep)
  | arrive (id : Nat) (data : List Byte)
  | tick (n : Nat)
  | txResult (r : TxResult)
  | cancel (b : Bool)
  | reset
  deriving DecidableEq, Repr, Inhabited

/-- A script (R112), read top to bottom; `rep body n rest` is `( body ) xN` followed by `rest`. -/
inductive Script where
  | done
  | line (l : Line) (rest : Script)
  | rep (body : Script) (n : Nat) (rest : Script)
  deriving DecidableEq, Repr, Inhabited

end Sys2Proof
end

