-- ==== Sys2Proof/Config.lean ====
section
/-! DEFINITION. The parameters an instance of RMC-CANID fixes (00_scope.md R7, 10_state.md R38), and the free values:
what 93_implementation_defined.md leaves to the environment or to the schedule. -/
namespace Sys2Proof

/-- The configuration parameters of R38. DESIGN CHOICE (log 5, 6, 7): they stand in `State` as data that no step writes,
so that a statement about every state is a statement about every value of them. -/
structure Config where
  /-- `RETRY_LIMIT`: most transmissions per request, 0 = unbounded (R181). -/
  retryLimit : Word
  /-- `POLL_INTERVAL`: most ticks between two polls of a wait, at least 1 (R172). -/
  pollInterval : Nat
  /-- `TICK_PERIOD` in nanoseconds, at least 1 (R7, D11). -/
  tickPeriodNs : Nat
  /-- `RXQ_DEPTH`: capacity of the receive FIFO, `none` = unbounded (R63). -/
  rxqDepth : Option Nat
  deriving DecidableEq, Repr, Inhabited

/-- FREE VALUE (log 1): the move some agent takes when State says nothing of what comes next. R16 leaves the order of
the agents' steps open, and R64 and R67 leave arrivals and send results to the environment. Nothing constrains it. -/
opaque Config.freeMove : Nat → Move

/-- FREE VALUE (log 4): the environment's draw of a TxSend's result (R67). Nothing constrains it. -/
opaque Config.freeTxResult : Nat → TxResult

/-- FREE VALUE (log 5): `POLL_INTERVAL` less 1 in the state after reset. R7 calls the parameter OPEN and gives no
default; R172 says only that it is at least 1. -/
opaque Config.freePollIntervalLessOne : Nat

/-- The parameters at the defaults of R7: no retry limit, a tick of 1 ms, an unbounded FIFO, any poll interval. -/
def Config.default : Config :=
  { retryLimit := 0, pollInterval := Config.freePollIntervalLessOne + 1, tickPeriodNs := 1000000, rxqDepth := none }

/-- R7: `POLL_INTERVAL` is an integer of at least 1, and a tick has a length. -/
abbrev Config.valid (c : Config) : Prop := 1 ≤ c.pollInterval ∧ 1 ≤ c.tickPeriodNs

/-- Client only: `PAGE_SIZE` = 0x800 (R7). -/
def Config.pageSize : Nat := 0x800

/-- Client only: the default of `PAGE_OFFSET` (R7), of a session that gives none. -/
def Config.pageOffset : Nat := 2

/-- Client only: the default of `LAST_PAGE` (R7), of a session that gives none. -/
def Config.lastPage : Nat := 63

end Sys2Proof
end

