-- ==== Sys2Proof/WellFormed.lean ====
section
/-! DEFINITION. What the model's boundary admits: requests and frames given in naturals (30_encoding.md R105,
20_memory.md R61, 60_exceptions.md R237) and the conditions of the pseudo-instructions (30_encoding.md R111). Every term
of `Instr` is well formed by its type: `dev` has 8 bits and `arg` 15. -/
namespace Sys2Proof

/-- R105, R237 a: `kind` 0..7, `dev` 0..255, `arg` 0..0x7FFF, a timeout of 32 bits. -/
def RawRequest.wellFormed (r : RawRequest) : Bool :=
  decide (r.kind ≤ 7) && decide (r.dev ≤ 255) && decide (r.arg ≤ 0x7FFF) && decide (r.timeout.getD 0 ≤ 0xFFFFFFFF)

/-- R61, R237 b: an ID of 29 bits, `dlc` in 0..8, exactly `dlc` data bytes. -/
def RawFrame.wellFormed (f : RawFrame) : Bool :=
  decide (f.id < 2 ^ 29) && decide (f.dlc ≤ 8) && decide (f.data.length = f.dlc)

/-- R61 for a frame that has its 29-bit ID by type: at most 8 data bytes. -/
abbrev Frame.wellFormed (f : Frame) : Prop := f.data.length ≤ 8

/-- The conditions of R111. -/
def Pseudo.wellFormed : Pseudo → Bool
  | .pagesel dev page => decide (dev ≤ 255) && decide (page ≤ 0x7FFF)
  | .erasepg dev page => decide (dev ≤ 255) && decide (page ≤ 0x7FFF)
  | .writeat dev off _ => decide (dev ≤ 255) && decide (off ≤ 0x7F8) && decide (off % 8 = 0)
  | .writepos dev pos _ => decide (dev ≤ 255) && decide (pos % 8 = 0)

end Sys2Proof
end

