-- ==== Sys2Proof/Decode.lean ====
section
/-! DEFINITION. The codec of the arbitration ID (30_encoding.md R90 to R98, 40_codec.md R121, R122, R126), the decoder
from 29-bit IDs to instructions and the encoder back. -/
namespace Sys2Proof

/-- KIND, bits 26..24 (R94). -/
def Kind.code : Kind → BitVec 3
  | .ping => 0
  | .pageselect => 1
  | .lock => 2
  | .unlock => 3
  | .erase => 4
  | .write => 5
  | .read => 6
  | .finish => 7

/-- The kind of an index (R94: every value 0..7 is a kind). -/
def Kind.ofCode (k : BitVec 3) : Kind :=
  match k.toNat with
  | 0 => .ping
  | 1 => .pageselect
  | 2 => .lock
  | 3 => .unlock
  | 4 => .erase
  | 5 => .write
  | 6 => .read
  | _ => .finish

/-- The masks of R90. -/
def baseMask : Id := 0x10000000
def replyMask : Id := 0x08000000
def kindMask : Id := 0x07000000
def errorMask : Id := 0x00800000
def argMask : Id := 0x007FFF00
def devMask : Id := 0x000000FF

/-- One bit of an ID: `if b then m else 0`. -/
def maskIf (b : Bool) (m : Id) : Id := if b then m else 0

/-- The record DECODE answers (R126): the six fields of R90. -/
structure IdFields where
  proto : Bool
  reply : Bool
  kind : Kind
  error : Bool
  arg : Arg
  dev : Dev
  deriving DecidableEq, Repr, Inhabited

/-- Field assembly (R126): `proto<<28 | reply<<27 | kind<<24 | error<<23 | arg<<8 | dev`. -/
def assembleId (f : IdFields) : Id :=
  maskIf f.proto baseMask ||| maskIf f.reply replyMask ||| (f.kind.code.setWidth 29 <<< 24) |||
    maskIf f.error errorMask ||| (f.arg.setWidth 29 <<< 8) ||| f.dev.setWidth 29

/-- DECODE (R126). -/
def decodeId (id : Id) : IdFields :=
  { proto := id.getLsbD 28
    reply := id.getLsbD 27
    kind := Kind.ofCode (id.extractLsb' 24 3)
    error := id.getLsbD 23
    arg := id.extractLsb' 8 15
    dev := id.extractLsb' 0 8 }

/-- ENCODE (R121). -/
def encodeId (dev : Dev) (kind : Kind) (arg : Arg) : Id :=
  baseMask ||| (kind.code.setWidth 29 <<< 24) ||| (arg.setWidth 29 <<< 8) ||| dev.setWidth 29

/-- REPLY_ID_FOR (R122). -/
def replyIdFor (c : Id) : Id := c ||| replyMask

/-- The error reply's ID (R102): `c | 0x08000000 | 0x00800000`. -/
def errorReplyIdFor (c : Id) : Id := c ||| replyMask ||| errorMask

/-- The command row of a kind. -/
def Instr.command (kind : Kind) (dev : Dev) (arg : Arg) : Instr :=
  match kind with
  | .ping => .ping dev arg
  | .pageselect => .pageselect dev arg
  | .lock => .lock dev arg
  | .unlock => .unlock dev arg
  | .erase => .erase dev arg
  | .write => .write dev arg
  | .read => .read dev arg
  | .finish => .finish dev arg

/-- The row `K.R` of a kind. -/
def Instr.validReply (kind : Kind) (dev : Dev) (arg : Arg) : Instr :=
  match kind with
  | .ping => .pingR dev arg
  | .pageselect => .pageselectR dev arg
  | .lock => .lockR dev arg
  | .unlock => .unlockR dev arg
  | .erase => .eraseR dev arg
  | .write => .writeR dev arg
  | .read => .readR dev arg
  | .finish => .finishR dev arg

/-- The row `K.E` of a kind. -/
def Instr.errorReply (kind : Kind) (dev : Dev) (arg : Arg) : Instr :=
  match kind with
  | .ping => .pingE dev arg
  | .pageselect => .pageselectE dev arg
  | .lock => .lockE dev arg
  | .unlock => .unlockE dev arg
  | .erase => .eraseE dev arg
  | .write => .writeE dev arg
  | .read => .readE dev arg
  | .finish => .finishE dev arg

/-- The row of a role and a kind. -/
def Instr.ofRole (role : Role) (kind : Kind) (dev : Dev) (arg : Arg) : Instr :=
  match role with
  | .command => Instr.command kind dev arg
  | .validReply => Instr.validReply kind dev arg
  | .errorReply => Instr.errorReply kind dev arg

/-- The role of a row (R113). -/
def Instr.role : Instr → Role
  | .ping _ _ => .command
  | .pageselect _ _ => .command
  | .lock _ _ => .command
  | .unlock _ _ => .command
  | .erase _ _ => .command
  | .write _ _ => .command
  | .read _ _ => .command
  | .finish _ _ => .command
  | .pingR _ _ => .validReply
  | .pageselectR _ _ => .validReply
  | .lockR _ _ => .validReply
  | .unlockR _ _ => .validReply
  | .eraseR _ _ => .validReply
  | .writeR _ _ => .validReply
  | .readR _ _ => .validReply
  | .finishR _ _ => .validReply
  | .pingE _ _ => .errorReply
  | .pageselectE _ _ => .errorReply
  | .lockE _ _ => .errorReply
  | .unlockE _ _ => .errorReply
  | .eraseE _ _ => .errorReply
  | .writeE _ _ => .errorReply
  | .readE _ _ => .errorReply
  | .finishE _ _ => .errorReply

/-- The kind of a row. -/
def Instr.kind : Instr → Kind
  | .ping _ _ => .ping
  | .pageselect _ _ => .pageselect
  | .lock _ _ => .lock
  | .unlock _ _ => .unlock
  | .erase _ _ => .erase
  | .write _ _ => .write
  | .read _ _ => .read
  | .finish _ _ => .finish
  | .pingR _ _ => .ping
  | .pageselectR _ _ => .pageselect
  | .lockR _ _ => .lock
  | .unlockR _ _ => .unlock
  | .eraseR _ _ => .erase
  | .writeR _ _ => .write
  | .readR _ _ => .read
  | .finishR _ _ => .finish
  | .pingE _ _ => .ping
  | .pageselectE _ _ => .pageselect
  | .lockE _ _ => .lock
  | .unlockE _ _ => .unlock
  | .eraseE _ _ => .erase
  | .writeE _ _ => .write
  | .readE _ _ => .read
  | .finishE _ _ => .finish

/-- The DEV field of a row. -/
def Instr.dev : Instr → Dev
  | .ping d _ => d
  | .pageselect d _ => d
  | .lock d _ => d
  | .unlock d _ => d
  | .erase d _ => d
  | .write d _ => d
  | .read d _ => d
  | .finish d _ => d
  | .pingR d _ => d
  | .pageselectR d _ => d
  | .lockR d _ => d
  | .unlockR d _ => d
  | .eraseR d _ => d
  | .writeR d _ => d
  | .readR d _ => d
  | .finishR d _ => d
  | .pingE d _ => d
  | .pageselectE d _ => d
  | .lockE d _ => d
  | .unlockE d _ => d
  | .eraseE d _ => d
  | .writeE d _ => d
  | .readE d _ => d
  | .finishE d _ => d

/-- The ARG field of a row. -/
def Instr.arg : Instr → Arg
  | .ping _ a => a
  | .pageselect _ a => a
  | .lock _ a => a
  | .unlock _ a => a
  | .erase _ a => a
  | .write _ a => a
  | .read _ a => a
  | .finish _ a => a
  | .pingR _ a => a
  | .pageselectR _ a => a
  | .lockR _ a => a
  | .unlockR _ a => a
  | .eraseR _ a => a
  | .writeR _ a => a
  | .readR _ a => a
  | .finishR _ a => a
  | .pingE _ a => a
  | .pageselectE _ a => a
  | .lockE _ a => a
  | .unlockE _ a => a
  | .eraseE _ a => a
  | .writeE _ a => a
  | .readE _ a => a
  | .finishE _ a => a

/-- Why an ID is no row of the opcode table (R103). Neither is a fault of the block: a POLL discards such a frame. -/
inductive DecodeError where
  /-- The value has more than 29 bits, so it is no ID (R60). -/
  | tooWide
  /-- BASE, bit 28, is 0: other bus traffic (R92). -/
  | outsideProtocol
  /-- BASE is 1, REPLY is 0 and ERROR is 1: sent by no one (R75, R103). -/
  | errorWithoutReply
  deriving DecidableEq, Repr

/-- The decoder: total on every 29-bit ID (R106). -/
def decode (id : Id) : Except DecodeError Instr :=
  let f := decodeId id
  match f.proto, f.reply, f.error with
  | false, _, _ => .error .outsideProtocol
  | true, false, true => .error .errorWithoutReply
  | true, false, false => .ok (Instr.command f.kind f.dev f.arg)
  | true, true, false => .ok (Instr.validReply f.kind f.dev f.arg)
  | true, true, true => .ok (Instr.errorReply f.kind f.dev f.arg)

/-- The decoder at the natural-number boundary: a value of more than 29 bits is rejected, not wrapped (R105). -/
def decodeNat (w : Nat) : Except DecodeError Instr :=
  if w < 2 ^ 29 then decode (BitVec.ofNat 29 w) else .error .tooWide

/-- The encoder: the ID of a row, assembled from the field table R90 with the fixed bits of its role (R98). -/
def encode (i : Instr) : Id :=
  match i.role with
  | .command => assembleId ⟨true, false, i.kind, false, i.arg, i.dev⟩
  | .validReply => assembleId ⟨true, true, i.kind, false, i.arg, i.dev⟩
  | .errorReply => assembleId ⟨true, true, i.kind, true, i.arg, i.dev⟩

/-- The decoder on a row's bits as spec/opcode_table.json numbers them: the one word is the ID itself, bit 0 its least
significant bit. An ID has no byte order (R70), and every bit from `nbits` on is 0. -/
def decodeTableWord (nbits w : Nat) : Option Instr :=
  match decodeNat (w % 2 ^ nbits) with
  | .ok i => some i
  | .error _ => none

end Sys2Proof
end

