-- ==== Sys2Proof/Machine/Flags.lean ====
section
/-! DEFINITION. The 1-bit values of the block (10_state.md R40): the tests of a received ID and the verdict POLL gives a
frame (40_codec.md R123 to R125, R127, R128). -/
namespace Sys2Proof.Machine

/-- IS_ERROR (R123): bit 23, independent of all other bits. -/
def isError (id : Id) : Bool := id.getLsbD 23

/-- IS_REPLY (R124): bit 27. -/
def isReply (id : Id) : Bool := id.getLsbD 27

/-- IS_PROTO (R125): bit 28. -/
def isProto (id : Id) : Bool := id.getLsbD 28

/-- MATCH (R127): every bit but 23 is equal; `~` is taken within 29 bits (R10). -/
def matchId (id exp : Id) : Bool := (id &&& ~~~errorMask) == exp

/-- The verdicts of CLASSIFY (R128). -/
inductive Verdict where
  | reply (isValid : Bool)
  | discard
  deriving DecidableEq, Repr

/-- CLASSIFY (R128): it reads only the frame's ID. -/
def classify (f : Frame) (exp : Id) : Verdict :=
  if matchId f.id exp then .reply (!isError f.id) else .discard

end Sys2Proof.Machine
end

