-- ==== Sys2Proof/Machine/State.lean ====
section
/-! DEFINITION. The state of RMC-CANID (10_state.md), with the transport's FIFO, the client's side of the request
channel, the reference client and the agents' coming moves; why a step can be refused; the state after reset. -/
namespace Sys2Proof.Machine

/-- `st`, the state of the send/retry machine (R22). -/
inductive Phase where
  | idle | drain | send | wait
  deriving DecidableEq, Repr, Inhabited

/-- `rsp_status` (R31, R232). -/
inductive RspStatus where
  | none | matched | cancelled | exhausted
  deriving DecidableEq, Repr, Inhabited

/-- The latched request registers `q_dev`, `q_kind`, `q_arg`, `q_data`, `q_timeout` (R23 to R27). -/
structure Latched where
  dev : Dev
  kind : Kind
  arg : Arg
  data : Bytes8
  timeout : Word
  deriving DecidableEq, Repr, Inhabited

/-- The response registers `rsp_status`, `rsp_ok`, `rsp_id`, `rsp_dlc`, `rsp_data` (R31 to R34). -/
structure Response where
  status : RspStatus
  ok : Bool
  id : Id
  dlc : BitVec 4
  data : Bytes8
  deriving DecidableEq, Repr, Inhabited

/-- NONE and zeros: what ACCEPT and RESET write to the response registers (R162, R260). -/
def Response.cleared : Response := { status := .none, ok := false, id := 0, dlc := 0, data := Bytes8.zero }

/-- The event kinds of R36. -/
inductive Event where
  /-- Block ACCEPT: the latched request. -/
  | accept (q : Latched)
  /-- Block DRAIN: the frames the flush removed. -/
  | flush (discarded : List Frame)
  /-- Block SEND: the frame handed to the transport, and the transport's result. -/
  | tx (id : Id) (dlc : Nat) (data : Bytes8) (result : TxResult)
  /-- Block POLL: a polled frame that did not match. -/
  | rxDiscard (f : Frame)
  /-- Block POLL: the polled frame that matched. -/
  | rxMatch (f : Frame)
  /-- Block POLL: an attempt timed out, and the number of attempts so far. -/
  | timeout (attempts : Word)
  /-- Block POLL: the completion and its response. -/
  | done (rsp : Response)
  /-- Transport: a frame entered the receive FIFO. -/
  | arrive (f : Frame)
  /-- Transport: a frame was lost because the FIFO was full. -/
  | drop (f : Frame)
  /-- Timebase: one tick elapsed. -/
  | tick
  /-- Reset: the block was reset. -/
  | reset
  deriving DecidableEq, Repr, Inhabited

/-- The reasons of the reference client's `Aborted` (R208), and `cancelled` of D44. -/
inductive AbortReason where
  | unlockRejected
  | pageselRejected
  | eraseRejected
  /-- With the failing absolute device address (R216). -/
  | writeMismatch (address : Nat)
  | lockRejected
  | finishRejected
  | cancelled
  deriving DecidableEq, Repr, Inhabited

/-- The states of the source's BootloaderSession (R208). -/
inductive SessionState where
  | idle | pinged | unlocked | programming | locked | finished
  | aborted (reason : AbortReason)
  deriving DecidableEq, Repr, Inhabited

/-- The reference client (R207 to R217): the inputs of one session, and its cursor. -/
structure Client where
  dev : Dev
  image : List Byte
  /-- `PAGE_OFFSET` (R7). -/
  pageOffset : Nat
  /-- `LAST_PAGE` (R7; 93 row 22): a parameter of the client, "unused by the core logic itself", which no rule reads. -/
  lastPage : Nat
  session : SessionState
  /-- `position` (R211). -/
  position : Nat
  /-- `current_page`; signed, since the sentinel of page offset 0 is -1 (R211). -/
  currentPage : Int
  /-- PAGESELECT of the target page has succeeded and ERASE has not yet (R214). -/
  pageSelected : Bool
  /-- A request of this client is outstanding, its response not yet read (R206). -/
  waiting : Bool
  deriving DecidableEq, Repr, Inhabited

/-- No step of this hardware faults: "No request, frame or transport result makes the block trap, halt or enter a fault
state" (R230). So there is no reason to name, and a claim that no step faults holds by type. -/
inductive Fault where
  deriving DecidableEq, Repr

/-- Why a step has no meaning. Every reason but the first stands at the model's boundary (R237) and is safe: the
hardware has no such step, so no claim about it is lost. -/
inductive Refusal where
  /-- `exec`: the instruction has no meaning yet. Safe. No arm of `exec` answers with it. -/
  | notModelled (mnemonic : String)
  /-- `Refuse(out_of_range)` (R237 a): raised by the client's move `present`, by the start of a session and by the
  reference client for a page above 0x7FFF (R214), and by the assembler. Safe: the port's widths exclude it. -/
  | outOfRange
  /-- `Refuse(ill_formed_frame)` (R237 b): raised by the transport's move `arrive`, and by the port view for an answer
  with `rx_dlc` above 8. Safe. -/
  | illFormedFrame
  /-- `Refuse(shared_transport)` (R237 c): raised by the move of a second user of the transport. Safe. -/
  | sharedTransport
  /-- A Write byte offset that is no multiple of 8, or is past the page (R111, 93 row 18): raised by the assembler. Safe. -/
  | badOffset
  /-- A listed move whose step is not enabled, which "makes the script invalid" (R112): raised by the moves of the
  block, the timebase and the client, and by the port view for an answer that no RxPoll gives. Safe: the hardware has no
  such step. -/
  | notEnabled
  deriving DecidableEq, Repr

/-- The whole state. The first ten fields are the block's (R20, R53); `done` is its completion strobe; `rxq` and
`txDraw` are the transport's, `req` and `client` the client's; `cfg` holds the parameters; `moves` and `freeCtr` are the
model's own (log 1). -/
structure State where
  /-- `st` (R22). -/
  st : Phase
  /-- The latched request (R23 to R27). -/
  q : Latched
  /-- `attempts` (R28), saturating. -/
  attempts : Word
  /-- `elapsed` (R29), unbounded in the model. -/
  elapsed : Nat
  /-- `since_poll` (R30). -/
  sincePoll : Nat
  /-- The response registers (R31 to R34). -/
  rsp : Response
  /-- `cancel`, CTRL bit 0 (R39, R49). -/
  cancel : Bool
  /-- The port `done` (R50): 1 in the state that follows a step with a DONE event, else 0 (log 11). -/
  done : Bool
  /-- `hist`, oldest event first (R36). -/
  hist : List Event
  /-- `rxq`, oldest frame first (R62). -/
  rxq : List Frame
  /-- The result fixed for the next TxSend, if any (R112 `TXRESULT`; log 4). -/
  txDraw : Option TxResult
  /-- The request the client presents on REQ, if any (R48; log 8). -/
  req : Option Request
  /-- The reference client's session, if one was started (R208; log 13). -/
  client : Option Client
  /-- The parameters of R38; no step writes them (log 5). -/
  cfg : Config
  /-- The moves that come next, in order (R112, R16; log 1). -/
  moves : List Move
  /-- How many free values have been drawn (log 1, 4). -/
  freeCtr : Nat
  deriving DecidableEq, Repr

/-- The latched request after reset (R53): 0, Ping, 0, zeros, 0. -/
def Latched.reset : Latched := { dev := 0, kind := .ping, arg := 0, data := Bytes8.zero, timeout := 0 }

/-- The machine right after reset (R53, R260 with `hist = []`). The spec gives no value for the fields that are not the
block's: an empty FIFO, nothing presented, no session, no coming move (log 12). -/
def State.reset : State :=
  { st := .idle
    q := Latched.reset
    attempts := 0
    elapsed := 0
    sincePoll := 0
    rsp := Response.cleared
    cancel := false
    done := false
    hist := []
    rxq := []
    txDraw := none
    req := none
    client := none
    cfg := Config.default
    moves := []
    freeCtr := 0 }

end Sys2Proof.Machine
end

