-- ==== Sys2Proof/Machine/Operands.lean ====
section
/-! DEFINITION. Operand forms: requests and frames at the model's boundary (R105, R237), the request an instruction
stands for on the channel REQ (R48, R110), argument assembly (R99 to R101), payload padding, tick conversion. -/
namespace Sys2Proof.Machine

/-- A duration in whole ticks, `ceil(t / TICK_PERIOD)` (D38). -/
def ticksOfNs (c : Config) (ns : Nat) : Nat := (ns + c.tickPeriodNs - 1) / c.tickPeriodNs

/-- `T_DEFAULT`: 0.1 s in ticks (R7, R27, D11). -/
def tDefault (c : Config) : Word := BitVec.ofNat 32 (ticksOfNs c 100000000)

/-- The typed request of a request in naturals; nothing where a field is out of range (R105: never wrapped). -/
def requestOfRaw (r : RawRequest) : Option Request :=
  if r.wellFormed then
    some { kind := Kind.ofCode (BitVec.ofNat 3 r.kind), dev := BitVec.ofNat 8 r.dev, arg := BitVec.ofNat 15 r.arg,
           data := r.data, timeout := r.timeout.map (BitVec.ofNat 32) }
  else none

/-- The frame of a frame in naturals; nothing where it is ill formed (R61). -/
def frameOfRaw (f : RawFrame) : Option Frame :=
  if f.wellFormed then some { id := BitVec.ofNat 29 f.id, data := f.data } else none

/-- The request on REQ when the instruction presented there is `kind` with `dev` and `arg`: payload and timeout are
those the client drives; where it drives none, R110's: eight 0x00 bytes and no timeout. -/
def presentedRequest (kind : Kind) (dev : Dev) (arg : Arg) (s : State) : Request :=
  match s.req with
  | some r => { kind := kind, dev := dev, arg := arg, data := r.data, timeout := r.timeout }
  | none => { kind := kind, dev := dev, arg := arg, data := Bytes8.zero, timeout := none }

/-- What ACCEPT latches from a request (R162): its fields, and `T_DEFAULT` where it gives no timeout (R27). -/
def latchedOf (c : Config) (r : Request) : Latched :=
  { dev := r.dev, kind := r.kind, arg := r.arg, data := r.data, timeout := r.timeout.getD (tDefault c) }

/-- The bytes of a frame in the 8-byte array of R34: `data[i]` below `dlc`, 0x00 from there on. -/
def padData (data : List Byte) : Bytes8 := Bytes8.ofIndex (fun i => data.getD i 0)

/-- The data bytes of the frame a POLL takes from the FIFO; none where the FIFO is empty. -/
def headData (rxq : List Frame) : List Byte :=
  match rxq with
  | f :: _ => f.data
  | [] => []

/-- The Write argument (R100): the in-page chunk index of a byte offset. -/
def chunkIndex (off : Nat) : Nat := off / 8

/-- The byte offset of a position in its page (R100). -/
def pageOffsetOf (position : Nat) : Nat := position % Config.pageSize

end Sys2Proof.Machine
end

