-- ==== Sys2Proof/Machine/Ops.lean ====
section
/-! DEFINITION. The named operations: the transport's primitives (20_memory.md R64 to R68), the block's steps
(42_sender.md R162 to R168), TICK (R170) and RESET (70_reset_and_hazards.md R260). Ending a request, `complete`, is the one
shared operation that plays the part of exception entry (60_exceptions.md R236). -/
namespace Sys2Proof.Machine

/-- `cmd_id` (R35). -/
def State.cmdId (s : State) : Id := encodeId s.q.dev s.q.kind s.q.arg

/-- `exp_id` (R35). -/
def State.expId (s : State) : Id := replyIdFor s.cmdId

/-- `busy` (R35). -/
def State.busy (s : State) : Bool := decide (s.st ≠ .idle)

/-- `emit E` (R11, R36). -/
def emit (e : Event) (s : State) : State := { s with hist := s.hist ++ [e] }

/-- RxPoll (R65): the oldest frame, which it removes, or None. -/
def rxPoll (s : State) : Option Frame × State :=
  match s.rxq with
  | [] => (none, s)
  | f :: rest => (some f, { s with rxq := rest })

/-- RxFlush (R66): every queued frame, which it removes. -/
def rxFlush (s : State) : List Frame × State := (s.rxq, { s with rxq := [] })

/-- The draw of a TxSend (R67): the result a TXRESULT line fixed (R112), else a free value. -/
def drawTxResult (s : State) : TxResult × State :=
  match s.txDraw with
  | some r => (r, { s with txDraw := none })
  | none => (Config.freeTxResult s.freeCtr, { s with freeCtr := s.freeCtr + 1 })

/-- TxSend (R67): one draw, recorded in the TX event. -/
def txSend (id : Id) (dlc : Nat) (data : Bytes8) (s : State) : State :=
  let d := drawTxResult s
  emit (.tx id dlc data d.1) d.2

/-- Whether `rxq` has room (R63). -/
def rxqHasRoom (s : State) : Bool :=
  match s.cfg.rxqDepth with
  | none => true
  | some n => decide (s.rxq.length < n)

/-- ARRIVE (R64): the frame enters the FIFO, or is lost where the FIFO is full. -/
def arrive (f : Frame) (s : State) : State :=
  if rxqHasRoom s then emit (.arrive f) { s with rxq := s.rxq ++ [f] } else emit (.drop f) s

/-- ACCEPT (R162) of a request: latch it, clear counters and response, and take it off the channel. -/
def acceptRequest (r : Request) (s : State) : State :=
  emit (.accept (latchedOf s.cfg r))
    { s with q := latchedOf s.cfg r, attempts := 0, elapsed := 0, sincePoll := 0, rsp := Response.cleared,
             req := none, st := .drain }

/-- DRAIN (R163). -/
def drain (s : State) : State :=
  let d := rxFlush s
  { emit (.flush d.1) d.2 with st := .send }

/-- `min(attempts + 1, 0xFFFFFFFF)` (R28). -/
def countAttempt (n : Word) : Word := BitVec.ofNat 32 (min (n.toNat + 1) 0xFFFFFFFF)

/-- SEND (R164): the result of the TxSend is recorded and not read (R175). -/
def send (s : State) : State :=
  { txSend s.cmdId 8 s.q.data s with
    attempts := countAttempt s.attempts, elapsed := 0, sincePoll := 0, st := .wait }

/-- TIMED_OUT (R166): strict. -/
def timedOut (s : State) : Bool := decide (s.elapsed > s.q.timeout.toNat)

/-- COMPLETE (R168): the one way a request ends. The response registers but the status hold what they are to hold. -/
def complete (status : RspStatus) (s : State) : State :=
  { emit (.done { s.rsp with status := status }) s with
    rsp := { s.rsp with status := status }, st := .idle, done := true }

/-- Whether the retry limit stops a request after this many attempts (R167, R181). -/
def limitHit (s : State) : Bool := decide (s.cfg.retryLimit ≠ 0) && decide (s.cfg.retryLimit.toNat ≤ s.attempts.toNat)

/-- STOP_OR_RETRY (R167): cancel before the limit, the limit before a retransmission. -/
def stopOrRetry (s : State) : State :=
  if s.cancel then complete .cancelled s
  else if limitHit s then complete .exhausted s
  else { s with st := .send }

/-- The match path of POLL (R165). -/
def takeMatch (f : Frame) (isValid : Bool) (s : State) : State :=
  complete .matched
    (emit (.rxMatch f)
      { s with rsp := { s.rsp with ok := isValid, id := f.id, dlc := BitVec.ofNat 4 f.data.length, data := padData f.data } })

/-- The timeout test of POLL, after no match (R165). -/
def afterNoMatch (s : State) : State :=
  if timedOut s then stopOrRetry (emit (.timeout s.attempts) s) else s

/-- What POLL makes of the answer of its RxPoll (R165): the match is tested before the timeout. -/
def examine (p : Option Frame) (s : State) : State :=
  match p with
  | none => afterNoMatch s
  | some f =>
    match classify f s.expId with
    | .reply isValid => takeMatch f isValid s
    | .discard => afterNoMatch (emit (.rxDiscard f) s)

/-- POLL (R165). -/
def poll (s : State) : State :=
  let p := rxPoll { s with sincePoll := 0 }
  examine p.1 p.2

/-- POLL whose RxPoll answers this frame: the head of the FIFO is removed and the frame examined. -/
def pollFrame (f : Frame) (s : State) : State :=
  examine (some f) { s with sincePoll := 0, rxq := s.rxq.tail }

/-- Whether TICK is enabled (R170, R172). DESIGN CHOICE (log 34): a TICK may come between a SEND and its first POLL, as
R170 and R172 allow and program P4 of 95 does, although R183 a says that every attempt has a POLL at `elapsed` = 0. -/
def tickEnabled (s : State) : Bool := !(decide (s.st = .wait) && decide (s.cfg.pollInterval ≤ s.sincePoll))

/-- TICK (R170). -/
def tick (s : State) : State :=
  let t := emit .tick s
  match s.st with
  | .wait => { t with elapsed := s.elapsed + 1, sincePoll := s.sincePoll + 1 }
  | .idle | .drain | .send => t

/-- RESET (R260, R262): the block's registers and CTRL; not the transport, the client, or the parameters. -/
def reset (s : State) : State :=
  emit .reset
    { s with st := .idle, q := Latched.reset, attempts := 0, elapsed := 0, sincePoll := 0, rsp := Response.cleared,
             cancel := false, done := false }

/-- A presented request that the block cannot take yet stays presented (R184). -/
def holdRequest (r : Request) (s : State) : State := { s with req := some r }

/-- A command (R140): in IDLE the block takes the request it stands for (R162); while busy the request is held (R184). -/
def runCommand (kind : Kind) (dev : Dev) (arg : Arg) (s : State) : Host.Outcome State Fault Refusal :=
  match s.st with
  | .idle => .next (acceptRequest (presentedRequest kind dev arg s) s)
  | .drain | .send | .wait => .next (holdRequest (presentedRequest kind dev arg s) s)

/-- A reply row (R149): in WAIT it is the frame a POLL takes from the head of the FIFO; in every other state no poll is
enabled (R161) and the frame stays in the FIFO. -/
def runReply (id : Id) (s : State) : Host.Outcome State Fault Refusal :=
  match s.st with
  | .wait => .next (pollFrame { id := id, data := headData s.rxq } s)
  | .idle | .drain | .send => .next s

end Sys2Proof.Machine
end

