-- ==== Sys2Proof/Machine/Client.lean ====
section
/-! DEFINITION. The reference client (45_host_interface.md R207 to R218): BootloaderSession driving PageProgrammer. It is
outside the block (00_scope.md R6) and reaches it only through REQ and the response registers. -/
namespace Sys2Proof.Machine

/-- Chunk extraction and padding with 0xFF (R212). -/
def chunkAt (image : List Byte) (position : Nat) : Bytes8 :=
  Bytes8.ofIndex (fun i => image.getD (position + i) 0xFF)

/-- TRANSFORM (R213): each 4-byte half is reversed, the halves keep their order. -/
def transform (c : Bytes8) : Bytes8 := ⟨c.b3, c.b2, c.b1, c.b0, c.b7, c.b6, c.b5, c.b4⟩

/-- `target_page` (R214). -/
def targetPage (c : Client) : Nat := c.position / Config.pageSize + c.pageOffset

/-- The failing absolute device address (R216). -/
def failingAddress (c : Client) : Nat := c.position + c.pageOffset * Config.pageSize

/-- The Write payload at the cursor (R215). -/
def writePayload (c : Client) : Bytes8 := transform (chunkAt c.image c.position)

/-- The request PROGRAM makes at its cursor (R214, R215, R217), and LOCK once the image is written (R209). -/
def programKind (c : Client) : Kind :=
  if c.position < c.image.length then
    if (targetPage c : Int) ≠ c.currentPage then
      if c.pageSelected then .erase else .pageselect
    else .write
  else .lock

/-- The request the session makes in this state (R209); none in `Unlocked`, which moves on by itself, and at the end. -/
def sessionKind (c : Client) : Option Kind :=
  match c.session with
  | .idle => some .ping
  | .pinged => some .unlock
  | .unlocked => none
  | .programming => some (programKind c)
  | .locked => some .finish
  | .finished => none
  | .aborted _ => none

/-- The argument the reference client gives a kind (R99, R214, R215). -/
def clientArg (kind : Kind) (c : Client) : Nat :=
  match kind with
  | .pageselect | .erase => targetPage c
  | .write => chunkIndex (pageOffsetOf c.position)
  | .ping | .lock | .unlock | .read | .finish => 0

/-- The payload the reference client gives a kind (R207, R215). -/
def clientData (kind : Kind) (c : Client) : Bytes8 :=
  match kind with
  | .write => writePayload c
  | .ping | .pageselect | .lock | .unlock | .erase | .read | .finish => Bytes8.zero

/-- The request of a kind, with the default timeout (R207); nothing where the page is above 0x7FFF (R214). -/
def clientRequest (kind : Kind) (c : Client) : Option Request :=
  requestOfRaw { kind := kind.code.toNat, dev := c.dev.toNat, arg := clientArg kind c, data := clientData kind c,
                 timeout := none }

/-- The client once a request of this kind completed MATCHED (R209 to R217). -/
def afterMatched (kind : Kind) (r : Response) (c : Client) : Client :=
  match kind with
  | .ping => { c with session := .pinged }
  | .unlock => { c with session := if r.ok then .unlocked else .aborted .unlockRejected }
  | .pageselect =>
    if r.ok then { c with pageSelected := true } else { c with session := .aborted .pageselRejected }
  | .erase =>
    if r.ok then { c with currentPage := targetPage c, pageSelected := false }
    else { c with session := .aborted .eraseRejected }
  | .write =>
    if r.ok && decide (r.dlc = 8) && decide (r.data = writePayload c) then { c with position := c.position + 8 }
    else { c with session := .aborted (.writeMismatch (failingAddress c)) }
  | .lock => { c with session := if r.ok then .locked else .aborted .lockRejected }
  | .finish => { c with session := if r.ok then .finished else .aborted .finishRejected }
  | .read => c

/-- The client once it has read the response (R209, D44): CANCELLED and EXHAUSTED end the session. With NONE in IDLE the
request was cut off by a RESET (R261): DESIGN CHOICE (log 13), the client asks again. -/
def afterResponse (kind : Kind) (r : Response) (c : Client) : Client :=
  match r.status with
  | .none => { c with waiting := false }
  | .matched => afterMatched kind r { c with waiting := false }
  | .cancelled | .exhausted => { c with waiting := false, session := .aborted .cancelled }

/-- Whether a session of the reference client is under way. DESIGN CHOICE (log 35): one whose page was refused (R214) still
is, so the moves `present` and `session` stay closed. -/
def sessionRunning (s : State) : Bool :=
  match s.client with
  | none => false
  | some c =>
    match c.session with
    | .finished | .aborted _ => false
    | .idle | .pinged | .unlocked | .programming | .locked => true

/-- The client of a new session (R209, R211): state Idle, `PAGE_OFFSET` and `LAST_PAGE` as given, else R7's defaults. -/
def newClient (dev : Dev) (image : List Byte) (pageOffset lastPage : Option Nat) : Client :=
  { dev := dev, image := image, pageOffset := pageOffset.getD Config.pageOffset
    lastPage := lastPage.getD Config.lastPage, session := .idle, position := 0
    currentPage := (pageOffset.getD Config.pageOffset : Int) - 1, pageSelected := false, waiting := false }

/-- The start of a session (R209). A device above 255 is refused (R237 a). -/
def startSession (dev : Nat) (image : List Byte) (pageOffset lastPage : Option Nat) (s : State) :
    Host.Outcome State Fault Refusal :=
  if sessionRunning s then .refused .notEnabled
  else if dev ≤ 255 then
    .next { s with client := some (newClient (BitVec.ofNat 8 dev) image pageOffset lastPage) }
  else .refused .outOfRange

/-- The client presents its next request, while the block is ready (R200). A page above 0x7FFF is refused (R214, log 14);
DESIGN CHOICE (log 35): the session is left as it is. -/
def clientAsk (kind : Kind) (c : Client) (s : State) : Host.Outcome State Fault Refusal :=
  match clientRequest kind c with
  | none => .refused .outOfRange
  | some r =>
    if s.st = .idle ∧ s.req = none then .next { s with req := some r, client := some { c with waiting := true } }
    else .refused .notEnabled

/-- The client reads the response of its outstanding request once the block took and ended it (R203, R206). -/
def clientRead (kind : Kind) (c : Client) (s : State) : Host.Outcome State Fault Refusal :=
  if s.st = .idle ∧ s.req = none then .next { s with client := some (afterResponse kind s.rsp c) }
  else .refused .notEnabled

/-- One step of the reference client: read a response, present the next request, or begin PROGRAM (R211). -/
def clientStep (s : State) : Host.Outcome State Fault Refusal :=
  match s.client with
  | none => .refused .notEnabled
  | some c =>
    match sessionKind c with
    | some kind => if c.waiting then clientRead kind c s else clientAsk kind c s
    | none =>
      match c.session with
      | .unlocked =>
        .next { s with client := some { c with session := .programming, position := 0,
                                               currentPage := (c.pageOffset : Int) - 1, pageSelected := false } }
      | .idle | .pinged | .programming | .locked | .finished | .aborted _ => .refused .notEnabled

end Sys2Proof.Machine
end

