-- ==== Sys2Proof/Machine/Commands.lean ====
section
/-! DEFINITION. The eight command kinds (41_commands.md R140 to R148). Every kind runs through the same send/retry
machine: the request is taken here (R162), and DRAIN, SEND and POLL are the block's own next steps (R163 to R168). -/
namespace Sys2Proof.Machine

/-- PING (R141), kind 0: presence check. `rsp_ok` is written like for every kind; only the reference client ignores it (R210). -/
def execPing (dev : Dev) (arg : Arg) (s : State) : Host.Outcome State Fault Refusal :=
  runCommand .ping dev arg s

/-- PAGESELECT (R142), kind 1: `arg` is the page index, in the ID. -/
def execPageselect (dev : Dev) (arg : Arg) (s : State) : Host.Outcome State Fault Refusal :=
  runCommand .pageselect dev arg s

/-- LOCK (R143), kind 2. -/
def execLock (dev : Dev) (arg : Arg) (s : State) : Host.Outcome State Fault Refusal :=
  runCommand .lock dev arg s

/-- UNLOCK (R144), kind 3. -/
def execUnlock (dev : Dev) (arg : Arg) (s : State) : Host.Outcome State Fault Refusal :=
  runCommand .unlock dev arg s

/-- ERASE (R145), kind 4: `arg` is the page index. A slow erase is retransmitted at each timeout (R167). -/
def execErase (dev : Dev) (arg : Arg) (s : State) : Host.Outcome State Fault Refusal :=
  runCommand .erase dev arg s

/-- WRITE (R146), kind 5: `arg` is the in-page chunk index; the block does not compare the echo. -/
def execWrite (dev : Dev) (arg : Arg) (s : State) : Host.Outcome State Fault Refusal :=
  runCommand .write dev arg s

/-- READ (R147), kind 6: handled like every other kind; argument and payload pass through (D5). -/
def execRead (dev : Dev) (arg : Arg) (s : State) : Host.Outcome State Fault Refusal :=
  runCommand .read dev arg s

/-- FINISH (R148), kind 7. -/
def execFinish (dev : Dev) (arg : Arg) (s : State) : Host.Outcome State Fault Refusal :=
  runCommand .finish dev arg s

end Sys2Proof.Machine
end

