-- ==== Sys2Proof/Machine/Replies.lean ====
section
/-! DEFINITION. The received forms of the eight kinds (41_commands.md R149): `K.R` has the ID `cmd_id | 0x08000000` of
the command it answers, `K.E` the ID `cmd_id | 0x08800000` (30_encoding.md R102). -/
namespace Sys2Proof.Machine

/-- PING.R (R149): a valid reply to PING. -/
def execPingR (dev : Dev) (arg : Arg) (s : State) : Host.Outcome State Fault Refusal :=
  runReply (replyIdFor (encodeId dev .ping arg)) s

/-- PAGESELECT.R (R149): a valid reply to PAGESELECT. -/
def execPageselectR (dev : Dev) (arg : Arg) (s : State) : Host.Outcome State Fault Refusal :=
  runReply (replyIdFor (encodeId dev .pageselect arg)) s

/-- LOCK.R (R149): a valid reply to LOCK. -/
def execLockR (dev : Dev) (arg : Arg) (s : State) : Host.Outcome State Fault Refusal :=
  runReply (replyIdFor (encodeId dev .lock arg)) s

/-- UNLOCK.R (R149): a valid reply to UNLOCK. -/
def execUnlockR (dev : Dev) (arg : Arg) (s : State) : Host.Outcome State Fault Refusal :=
  runReply (replyIdFor (encodeId dev .unlock arg)) s

/-- ERASE.R (R149): a valid reply to ERASE. -/
def execEraseR (dev : Dev) (arg : Arg) (s : State) : Host.Outcome State Fault Refusal :=
  runReply (replyIdFor (encodeId dev .erase arg)) s

/-- WRITE.R (R149): a valid reply to WRITE. -/
def execWriteR (dev : Dev) (arg : Arg) (s : State) : Host.Outcome State Fault Refusal :=
  runReply (replyIdFor (encodeId dev .write arg)) s

/-- READ.R (R149): a valid reply to READ. -/
def execReadR (dev : Dev) (arg : Arg) (s : State) : Host.Outcome State Fault Refusal :=
  runReply (replyIdFor (encodeId dev .read arg)) s

/-- FINISH.R (R149): a valid reply to FINISH. -/
def execFinishR (dev : Dev) (arg : Arg) (s : State) : Host.Outcome State Fault Refusal :=
  runReply (replyIdFor (encodeId dev .finish arg)) s

/-- PING.E (R149): an error reply to PING. -/
def execPingE (dev : Dev) (arg : Arg) (s : State) : Host.Outcome State Fault Refusal :=
  runReply (errorReplyIdFor (encodeId dev .ping arg)) s

/-- PAGESELECT.E (R149): an error reply to PAGESELECT. -/
def execPageselectE (dev : Dev) (arg : Arg) (s : State) : Host.Outcome State Fault Refusal :=
  runReply (errorReplyIdFor (encodeId dev .pageselect arg)) s

/-- LOCK.E (R149): an error reply to LOCK. -/
def execLockE (dev : Dev) (arg : Arg) (s : State) : Host.Outcome State Fault Refusal :=
  runReply (errorReplyIdFor (encodeId dev .lock arg)) s

/-- UNLOCK.E (R149): an error reply to UNLOCK. -/
def execUnlockE (dev : Dev) (arg : Arg) (s : State) : Host.Outcome State Fault Refusal :=
  runReply (errorReplyIdFor (encodeId dev .unlock arg)) s

/-- ERASE.E (R149): an error reply to ERASE. -/
def execEraseE (dev : Dev) (arg : Arg) (s : State) : Host.Outcome State Fault Refusal :=
  runReply (errorReplyIdFor (encodeId dev .erase arg)) s

/-- WRITE.E (R149): an error reply to WRITE. -/
def execWriteE (dev : Dev) (arg : Arg) (s : State) : Host.Outcome State Fault Refusal :=
  runReply (errorReplyIdFor (encodeId dev .write arg)) s

/-- READ.E (R149): an error reply to READ. -/
def execReadE (dev : Dev) (arg : Arg) (s : State) : Host.Outcome State Fault Refusal :=
  runReply (errorReplyIdFor (encodeId dev .read arg)) s

/-- FINISH.E (R149): an error reply to FINISH. -/
def execFinishE (dev : Dev) (arg : Arg) (s : State) : Host.Outcome State Fault Refusal :=
  runReply (errorReplyIdFor (encodeId dev .finish arg)) s

end Sys2Proof.Machine
end

