-- ==== Sys2Proof/Machine/Dispatch.lean ====
section
/-! DEFINITION. One arm per row of spec/opcode_table.json. -/
namespace Sys2Proof.Machine

def exec (i : Instr) (s : State) : Host.Outcome State Fault Refusal :=
  match i with
  | .ping dev arg => Sys2Proof.Machine.execPing dev arg s
  | .pageselect dev arg => Sys2Proof.Machine.execPageselect dev arg s
  | .lock dev arg => Sys2Proof.Machine.execLock dev arg s
  | .unlock dev arg => Sys2Proof.Machine.execUnlock dev arg s
  | .erase dev arg => Sys2Proof.Machine.execErase dev arg s
  | .write dev arg => Sys2Proof.Machine.execWrite dev arg s
  | .read dev arg => Sys2Proof.Machine.execRead dev arg s
  | .finish dev arg => Sys2Proof.Machine.execFinish dev arg s
  | .pingR dev arg => Sys2Proof.Machine.execPingR dev arg s
  | .pageselectR dev arg => Sys2Proof.Machine.execPageselectR dev arg s
  | .lockR dev arg => Sys2Proof.Machine.execLockR dev arg s
  | .unlockR dev arg => Sys2Proof.Machine.execUnlockR dev arg s
  | .eraseR dev arg => Sys2Proof.Machine.execEraseR dev arg s
  | .writeR dev arg => Sys2Proof.Machine.execWriteR dev arg s
  | .readR dev arg => Sys2Proof.Machine.execReadR dev arg s
  | .finishR dev arg => Sys2Proof.Machine.execFinishR dev arg s
  | .pingE dev arg => Sys2Proof.Machine.execPingE dev arg s
  | .pageselectE dev arg => Sys2Proof.Machine.execPageselectE dev arg s
  | .lockE dev arg => Sys2Proof.Machine.execLockE dev arg s
  | .unlockE dev arg => Sys2Proof.Machine.execUnlockE dev arg s
  | .eraseE dev arg => Sys2Proof.Machine.execEraseE dev arg s
  | .writeE dev arg => Sys2Proof.Machine.execWriteE dev arg s
  | .readE dev arg => Sys2Proof.Machine.execReadE dev arg s
  | .finishE dev arg => Sys2Proof.Machine.execFinishE dev arg s

end Sys2Proof.Machine
end

