-- ==== Sys2Proof/Machine/Registers.lean ====
section
/-! DEFINITION. The client's register view (10_state.md R41 to R49): ten 32-bit registers, read without side effect. -/
namespace Sys2Proof.Machine

/-- The code of `st` (R22). -/
def Phase.code : Phase → BitVec 2
  | .idle => 0
  | .drain => 1
  | .send => 2
  | .wait => 3

/-- The code of `rsp_status` (R31). -/
def RspStatus.code : RspStatus → BitVec 2
  | .none => 0
  | .matched => 1
  | .cancelled => 2
  | .exhausted => 3

/-- A bit as a 32-bit word. -/
def bitWord (b : Bool) : Word := if b then 1 else 0

/-- Four bytes in a word: byte i in bits 8i+7..8i (R45). -/
def packWord (d0 d1 d2 d3 : Byte) : Word := d3 ++ d2 ++ d1 ++ d0

/-- STATUS (R42): BUSY 0, ST 2:1, RSP_STATUS 4:3, RSP_OK 5, the rest 0. -/
def statusWord (s : State) : Word :=
  bitWord s.busy ||| (s.st.code.setWidth 32 <<< 1) ||| (s.rsp.status.code.setWidth 32 <<< 3) ||| (bitWord s.rsp.ok <<< 5)

/-- A register read (R41): 0 at an index that is not in the table. -/
def readRegister (index : Nat) (s : State) : Word :=
  match index with
  | 0 => statusWord s
  | 1 => s.rsp.id.setWidth 32
  | 2 => s.rsp.dlc.setWidth 32
  | 3 => packWord s.rsp.data.b0 s.rsp.data.b1 s.rsp.data.b2 s.rsp.data.b3
  | 4 => packWord s.rsp.data.b4 s.rsp.data.b5 s.rsp.data.b6 s.rsp.data.b7
  | 5 => s.attempts
  | 6 => s.cmdId.setWidth 32
  | 7 => s.expId.setWidth 32
  | 8 => BitVec.ofNat 32 (min s.elapsed 0xFFFFFFFF)
  | 9 => bitWord s.cancel
  | _ => 0

/-- A register write (R41, R49): CTRL, index 9, takes CANCEL from bit 0; every other write is ignored. -/
def writeRegister (index : Nat) (value : Word) (s : State) : State :=
  match index with
  | 9 => { s with cancel := value.getLsbD 0 }
  | _ => s

end Sys2Proof.Machine
end

