-- ==== Sys2Proof/Machine/Agents.lean ====
section
/-! DEFINITION. The moves of the five agents (00_scope.md R15) and which comes next. An instruction runs when the block
takes a presented request (ACCEPT) or a frame from the FIFO (POLL). -/
namespace Sys2Proof.Machine

/-- The row of a presented request: its command (R113). -/
def requestInstr (r : Request) : Instr := Instr.command r.kind r.dev r.arg

/-- The reply row of a received ID, if it is one; a POLL discards every other ID (R103). -/
def replyInstr (id : Id) : Option Instr :=
  match decode id with
  | .error _ => none
  | .ok i =>
    match i.role with
    | .command => none
    | .validReply | .errorReply => some i

/-- The block's POLL (R165): a reply row at the head of the FIFO runs as the instruction it is; any other head is
discarded, and an empty FIFO is None. -/
def pollHead (s : State) : Host.Outcome State Fault Refusal :=
  match s.rxq with
  | [] => .next (poll s)
  | f :: _ =>
    match replyInstr f.id with
    | some i => exec i s
    | none => .next (poll s)

/-- The block's step, where it is enabled (R161 to R165). -/
def blockMove (b : BlockStep) (s : State) : Host.Outcome State Fault Refusal :=
  match b, s.st with
  | .accept, .idle =>
    match s.req with
    | some r => exec (requestInstr r) s
    | none => .refused .notEnabled
  | .drain, .drain => .next (drain s)
  | .send, .send => .next (send s)
  | .poll, .wait => pollHead s
  | _, _ => .refused .notEnabled

/-- The client's move `present`: nothing else is presented, and no session of the reference client is under way
(R200: it keeps a request presented until ACCEPT, and there is one client). -/
def presentMove (raw : RawRequest) (s : State) : Host.Outcome State Fault Refusal :=
  match requestOfRaw raw with
  | none => .refused .outOfRange
  | some r => if s.req = none ∧ sessionRunning s = false then .next (holdRequest r s) else .refused .notEnabled

/-- One move of one agent. -/
def takeMove (m : Move) (s : State) : Host.Outcome State Fault Refusal :=
  match m with
  | .block b => blockMove b s
  | .arrive raw =>
    match frameOfRaw raw with
    | some f => .next (arrive f s)
    | none => .refused .illFormedFrame
  | .txResult r => .next { s with txDraw := some r }
  | .tick => if tickEnabled s then .next (tick s) else .refused .notEnabled
  | .present raw => presentMove raw s
  | .writeReg index value => .next (writeRegister index value s)
  | .readReg _ => .next s
  | .session dev image pageOffset lastPage => startSession dev image pageOffset lastPage s
  | .client => clientStep s
  | .reset => .next (reset s)
  | .secondUser _ => .refused .sharedTransport

/-- A move that is enabled in this state: the block's own step, or a tick where the block waits for a request (R161,
R170). -/
def ownMove (s : State) : Move :=
  match s.st with
  | .idle =>
    match s.req with
    | some _ => .block .accept
    | none => .tick
  | .drain => .block .drain
  | .send => .block .send
  | .wait => .block .poll

/-- A free move, where State lists none (R16; log 1, 2): the one drawn, or, where that step is not enabled or is
refused, one that is (so a client whose page is refused takes no further step; log 35). -/
def takeFreeMove (drawn : Move) (s : State) : Host.Outcome State Fault Refusal :=
  match takeMove drawn s with
  | .next t => .next t
  | .fault _ => takeMove (ownMove s) s
  | .refused _ => takeMove (ownMove s) s

/-- The state a move starts in: the strobe `done` of the step before is over (R238). -/
def beginMove (s : State) : State := { s with done := false }

/-- One step of the machine: the next listed move, else a free one. -/
def stepAgents (s : State) : Host.Outcome State Fault Refusal :=
  match s.moves with
  | m :: rest => takeMove m (beginMove { s with moves := rest })
  | [] => takeFreeMove (Config.freeMove s.freeCtr) (beginMove { s with freeCtr := s.freeCtr + 1 })

/-- A waiting block with this frame at the head of its FIFO, about to poll. -/
def placeFrame (id : Id) (s : State) : State :=
  { s with st := .wait, rxq := { id := id, data := [] } :: s.rxq, moves := .block .poll :: s.moves }

/-- An idle block with this command presented on REQ, about to accept; payload and timeout as in R110. -/
def placeRequest (f : IdFields) (s : State) : State :=
  { s with st := .idle, moves := .block .accept :: s.moves
           req := some { kind := f.kind, dev := f.dev, arg := f.arg, data := Bytes8.zero, timeout := none } }

/-- The instruction with ID `id` where the block reads its next one, and the block's step as the next move: a command is
presented on REQ to an idle block; any other ID is a frame at the head of the FIFO of a waiting block. -/
def placeId (id : Id) (s : State) : State :=
  if (decodeId id).proto && !(decodeId id).reply && !(decodeId id).error then placeRequest (decodeId id) s
  else placeFrame id s

end Sys2Proof.Machine
end

