-- ==== Sys2Proof/Machine/Step.lean ====
section
/-! DEFINITION. One step of the machine, and where it reads its next instruction. -/
namespace Sys2Proof.Machine

/-- One atomic step of one agent (00_scope.md R15, R16; 20_memory.md R81). -/
def step (s : State) : Host.Outcome State Fault Refusal := stepAgents s

/-- `s` with the instruction whose bits are `w` (bit 0 least significant, bits from `nbits` on zero) where `step` reads
its next instruction, so that the very next step runs it (log 8). -/
def State.withFetchWord (s : State) (nbits w : Nat) : State := placeId (BitVec.ofNat 29 (w % 2 ^ nbits)) s

end Sys2Proof.Machine
end

