-- ==== Sys2Proof/Machine/Assembler.lean ====
section
/-! DEFINITION. Requests, pseudo-instructions and scripts (30_encoding.md R110 to R112): a script becomes the list of
moves State holds, or is refused. -/
namespace Sys2Proof.Machine

/-- A request line with its defaults (R110): an absent `arg` is 0, absent `data` eight 0x00 bytes, an absent `timeout`
none, which ACCEPT turns into `T_DEFAULT`. -/
def rawOfLine (r : RequestLine) : RawRequest :=
  { kind := r.kind.code.toNat, dev := r.dev, arg := r.arg.getD 0, data := r.data.getD Bytes8.zero, timeout := r.timeout }

/-- The request line a pseudo-instruction expands to (R111), where its condition holds. -/
def expandPseudo (p : Pseudo) : Except Refusal RequestLine :=
  if p.wellFormed then
    match p with
    | .pagesel dev page => .ok { kind := .pageselect, dev := dev, arg := some page, data := none, timeout := none }
    | .erasepg dev page => .ok { kind := .erase, dev := dev, arg := some page, data := none, timeout := none }
    | .writeat dev off data =>
      .ok { kind := .write, dev := dev, arg := some (chunkIndex off), data := some data, timeout := none }
    | .writepos dev pos data =>
      .ok { kind := .write, dev := dev, arg := some (chunkIndex (pageOffsetOf pos)), data := some data, timeout := none }
  else
    match p with
    | .pagesel _ _ | .erasepg _ _ => .error .outOfRange
    | .writeat dev _ _ | .writepos dev _ _ => .error (if dev ≤ 255 then .badOffset else .outOfRange)

/-- The move of a request line: one request (R110), which is presented. DESIGN CHOICE (log 33): its ACCEPT is the block's
step, and is not put into the script, so a second request line with no `[ACCEPT]` written before it is refused as
`notEnabled` when its move comes (a request is still presented). -/
def movesOfRequest (r : RequestLine) : Except Refusal (List Move) :=
  if (rawOfLine r).wellFormed then .ok [.present (rawOfLine r)] else .error .outOfRange

/-- The moves of one line (R110 to R112). -/
def movesOfLine (l : Line) : Except Refusal (List Move) :=
  match l with
  | .request r => movesOfRequest r
  | .pseudo p => (expandPseudo p).bind movesOfRequest
  | .step b => .ok [.block b]
  | .arrive id data =>
    if ({ id := id, dlc := data.length, data := data } : RawFrame).wellFormed then
      .ok [.arrive { id := id, dlc := data.length, data := data }]
    else .error .illFormedFrame
  | .tick n => .ok (List.replicate n .tick)
  | .txResult r => .ok [.txResult r]
  | .cancel b => .ok [.writeReg 9 (bitWord b)]
  | .reset => .ok [.reset]

/-- The moves of a script, read top to bottom; `( body ) xN` is the body written N times (R112). DESIGN CHOICE (log 33):
R112 writes block steps "where the order matters" and does not say what a script without them means; no step is put
between the lines. -/
def movesOfScript (sc : Script) : Except Refusal (List Move) :=
  match sc with
  | .done => .ok []
  | .line l rest => (movesOfLine l).bind fun a => (movesOfScript rest).bind fun b => .ok (a ++ b)
  | .rep body n rest =>
    (movesOfScript body).bind fun a => (movesOfScript rest).bind fun b => .ok ((List.replicate n a).flatten ++ b)

/-- "In a script, a TxSend with no TXRESULT line since the previous TxSend draws `ok`" (R112): `drawn` says that such a
line was read. -/
def withTxDefaults (drawn : Bool) (ms : List Move) : List Move :=
  match ms with
  | [] => []
  | m :: rest =>
    match m with
    | .txResult r => .txResult r :: withTxDefaults true rest
    | .block .send => if drawn then .block .send :: withTxDefaults false rest
                      else .txResult .ok :: .block .send :: withTxDefaults false rest
    | m => m :: withTxDefaults drawn rest

/-- A script as the moves of a run (R112). -/
def assembleScript (sc : Script) : Except Refusal (List Move) := (movesOfScript sc).map (withTxDefaults false)

end Sys2Proof.Machine
end

