-- ==== Sys2Proof/Machine/Ports.lean ====
section
/-! DEFINITION. The port-level view (10_state.md R50 to R52): which signals of a synchronous implementation carry the
transactions of the model. The outputs are a view of State; the inputs sampled in a state stand for the moves that carry
them out (`PortsIn.moves`). -/
namespace Sys2Proof.Machine

/-- A 64-bit data port (R52): byte i in bits 8i+7..8i. -/
def packPort (d : Bytes8) : BitVec 64 := d.b7 ++ d.b6 ++ d.b5 ++ d.b4 ++ d.b3 ++ d.b2 ++ d.b1 ++ d.b0

/-- The bytes a 64-bit data port carries (R52). -/
def unpackPort (v : BitVec 64) : Bytes8 := Bytes8.ofIndex (fun i => v.extractLsb' (8 * i) 8)

/-- The output ports of R50. -/
structure PortsOut where
  reqReady : Bool
  done : Bool
  rspStatus : BitVec 2
  rspOk : Bool
  rspId : Id
  rspDlc : BitVec 4
  rspData : BitVec 64
  txValid : Bool
  txId : Id
  txDlc : BitVec 4
  txData : BitVec 64
  rxPop : Bool
  rxFlush : Bool
  deriving DecidableEq, Repr

/-- The outputs in a state. DESIGN CHOICE (log 18): a transport request is driven in the state whose step makes it, TxSend
in SEND, RxPoll in WAIT, RxFlush in DRAIN; and `tx_id`, `tx_dlc` and `tx_data`, on whose values R50 is silent while
`tx_valid` is 0, are `cmd_id`, 8 and `q_data` in every state. -/
def portsOut (s : State) : PortsOut :=
  { reqReady := decide (s.st = .idle)
    done := s.done
    rspStatus := s.rsp.status.code
    rspOk := s.rsp.ok
    rspId := s.rsp.id
    rspDlc := s.rsp.dlc
    rspData := packPort s.rsp.data
    txValid := decide (s.st = .send)
    txId := s.cmdId
    txDlc := 8
    txData := packPort s.q.data
    rxPop := decide (s.st = .wait)
    rxFlush := decide (s.st = .drain) }

/-- The input ports of R50. -/
structure PortsIn where
  reqValid : Bool
  reqKind : BitVec 3
  reqDev : Dev
  reqArg : Arg
  reqData : BitVec 64
  reqTimeout : Word
  reqTimeoutGiven : Bool
  cancel : Bool
  rst : Bool
  txDone : Bool
  txFail : Bool
  rxValid : Bool
  rxId : Id
  rxDlc : BitVec 4
  rxData : BitVec 64
  tick : Bool
  deriving DecidableEq, Repr

/-- The request on the request ports (R48, R50). -/
def PortsIn.request (p : PortsIn) : Option Request :=
  if p.reqValid then
    some { kind := Kind.ofCode p.reqKind, dev := p.reqDev, arg := p.reqArg, data := unpackPort p.reqData,
           timeout := if p.reqTimeoutGiven then some p.reqTimeout else none }
  else none

/-- The result on the transmit ports (R50): none until the TxSend is done. -/
def PortsIn.txResult (p : PortsIn) : Option TxResult :=
  if p.txDone then some (if p.txFail then .fail else .ok) else none

/-- The answer to an RxPoll on the receive ports (R50): `rx_valid = 0` is None. The 4-bit port `rx_dlc` can carry 9..15,
an ill-formed frame (R61): it is refused as R237 b says, never cut to 8 bytes. -/
def PortsIn.rxAnswer (p : PortsIn) : Except Refusal (Option Frame) :=
  if p.rxValid then
    if p.rxDlc.toNat ≤ 8 then .ok (some { id := p.rxId, data := (unpackPort p.rxData).toList.take p.rxDlc.toNat })
    else .error .illFormedFrame
  else .ok none

/-- The move of the port `cancel` (R39, R50). DESIGN CHOICE (log 18): R50 says only "also CTRL bit 0"; the port and CTRL
drive the one level, a sample of the port as a write of CTRL does, and the later of the two holds. -/
def PortsIn.cancelMove (p : PortsIn) : Move := .writeReg 9 (bitWord p.cancel)

/-- The move of the request ports: a request that is not presented yet is (R48). -/
def PortsIn.requestMoves (p : PortsIn) (s : State) : List Move :=
  match p.request, s.req with
  | some r, none =>
    [.present { kind := r.kind.code.toNat, dev := r.dev.toNat, arg := r.arg.toNat, data := r.data
                timeout := r.timeout.map BitVec.toNat }]
  | some _, some _ => []
  | none, _ => []

/-- A POLL with the answer of the receive ports (R65). It is the head of `rxq`; DESIGN CHOICE (log 18): no port carries an
arrival, so a frame answered while `rxq` is empty is one that ARRIVEs just before. No RxPoll gives any other answer. -/
def PortsIn.pollMoves (p : PortsIn) (s : State) : Except Refusal (List Move) :=
  p.rxAnswer.bind fun answer =>
    match answer, s.rxq with
    | none, [] => .ok [.block .poll]
    | some f, [] => .ok [.arrive { id := f.id.toNat, dlc := f.data.length, data := f.data }, .block .poll]
    | none, _ :: _ => .error .notEnabled
    | some f, g :: _ => if f = g then .ok [.block .poll] else .error .notEnabled

/-- The block's step with these inputs (R50): ACCEPT when `req_valid` and `req_ready` are 1, SEND once its TxSend is done,
DRAIN and POLL at once. -/
def PortsIn.blockMoves (p : PortsIn) (s : State) : Except Refusal (List Move) :=
  match s.st with
  | .idle => .ok (if p.reqValid then [.block .accept] else [])
  | .drain => .ok [.block .drain]
  | .send =>
    match p.txResult with
    | some r => .ok [.txResult r, .block .send]
    | none => .ok []
  | .wait => p.pollMoves s

/-- The moves that one sample of the input ports stands for, where no session of the reference client is under way: `rst`
is RESET, which discards the block's step (R239 a), `tick` is one TICK. DESIGN CHOICE (log 18): they come in the order
reset, cancel, request, block, tick. -/
def PortsIn.moves (p : PortsIn) (s : State) : Except Refusal (List Move) :=
  let first := (if p.rst then [.reset] else []) ++ p.cancelMove :: p.requestMoves s
  let last := if p.tick then [.tick] else []
  if p.rst then .ok (first ++ last) else (p.blockMoves s).map fun block => first ++ block ++ last

/-- The ports of the stand-alone codec unit (R51). -/
structure CodecIn where
  encDev : Dev
  encKind : BitVec 3
  encArg : Arg
  decId : Id
  mId : Id
  mExp : Id
  deriving DecidableEq, Repr

structure CodecOut where
  encId : Id
  encReply : Id
  decProto : Bool
  decReply : Bool
  decKind : BitVec 3
  decError : Bool
  decArg : Arg
  decDev : Dev
  mMatch : Bool
  deriving DecidableEq, Repr

/-- The combinational codec unit (R51). -/
def codecUnit (p : CodecIn) : CodecOut :=
  { encId := encodeId p.encDev (Kind.ofCode p.encKind) p.encArg
    encReply := replyIdFor (encodeId p.encDev (Kind.ofCode p.encKind) p.encArg)
    decProto := (decodeId p.decId).proto
    decReply := (decodeId p.decId).reply
    decKind := (decodeId p.decId).kind.code
    decError := (decodeId p.decId).error
    decArg := (decodeId p.decId).arg
    decDev := (decodeId p.decId).dev
    mMatch := matchId p.mId p.mExp }

end Sys2Proof.Machine
end

