-- ==== Sys2Proof/Safety.lean ====
section
/-! DEFINITION. The terms claims are stated in: the invariants of 10_state.md R55 and of the other files, the order of
events of 20_memory.md R77, what one request has transmitted, runs and their fairness (42_sender.md R173). -/
namespace Sys2Proof.Machine

/-- R55 d, e and R54: what the response registers hold under each status. -/
def responseAgrees (s : State) : Prop :=
  match s.rsp.status with
  | .none => s.rsp = Response.cleared
  | .matched => (s.rsp.id &&& ~~~errorMask) = s.expId ∧ s.rsp.ok = !s.rsp.id.getLsbD 23
  | .cancelled => s.rsp = { Response.cleared with status := .cancelled }
  | .exhausted => s.rsp = { Response.cleared with status := .exhausted }

/-- The response a matched frame leaves (R33, R34, R165): its ID, its length, its bytes, 0x00 from there on. -/
def responseOf (f : Frame) (ok : Bool) : Response :=
  { status := .matched, ok := ok, id := f.id, dlc := BitVec.ofNat 4 f.data.length
    data := Bytes8.ofIndex (fun i => if i < f.data.length then f.data.getD i 0 else 0) }

/-- The invariant of the block and its transport. -/
structure Inv (s : State) : Prop where
  /-- R55 a: a latched request has no response yet. -/
  unanswered : s.st ≠ .idle → s.rsp.status = .none
  /-- R55 b. -/
  attempted : s.st = .wait → 1 ≤ s.attempts.toNat
  /-- R55 c. -/
  unattempted : s.st = .drain → s.attempts = 0
  /-- R55 d, e. -/
  response : responseAgrees s
  /-- R34: `rsp_dlc` is 0..8. -/
  shortReply : s.rsp.dlc.toNat ≤ 8
  /-- R34: bytes from `rsp_dlc` on are 0x00. -/
  padded : ∀ i, s.rsp.dlc.toNat ≤ i → s.rsp.data.get i = 0
  /-- R61, R62: only well-formed frames are queued. -/
  frames : ∀ f ∈ s.rxq, f.wellFormed
  /-- R63: at most `RXQ_DEPTH` frames are queued. -/
  room : ∀ n, s.cfg.rxqDepth = some n → s.rxq.length ≤ n
  /-- R7: the parameters are in range. -/
  params : s.cfg.valid
  /-- R172: no more than `POLL_INTERVAL` ticks since the last poll. -/
  polled : s.st = .wait → s.sincePoll ≤ s.cfg.pollInterval
  /-- R174: the earlier poll had `elapsed <= q_timeout`. -/
  timely : s.st = .wait → s.elapsed ≤ s.q.timeout.toNat + s.sincePoll

/-- R181: a request transmits at most `RETRY_LIMIT` times, and one more transmission is due only below the limit. -/
def LimitInv (s : State) : Prop :=
  s.cfg.retryLimit ≠ 0 →
    s.attempts.toNat ≤ s.cfg.retryLimit.toNat ∧
    (s.st = .drain ∨ s.st = .send → s.attempts.toNat < s.cfg.retryLimit.toNat)

/-- Where a request stands in the order of R77. -/
inductive Progress where
  /-- No request is open. -/
  | closed
  /-- ACCEPT was emitted. -/
  | accepted
  /-- FLUSH was emitted, no transmission yet. -/
  | flushed
  /-- TX was emitted, and since then only discards. -/
  | sent
  /-- TIMEOUT was emitted. -/
  | timedOut
  /-- RX_MATCH was emitted. -/
  | matched
  deriving DecidableEq, Repr

/-- The event R77 admits next; nothing where the order is broken. ARRIVE, DROP and TICK fall anywhere, and RESET cuts the
sequence off. -/
def Progress.next (p : Progress) (e : Event) : Option Progress :=
  match p, e with
  | p, .arrive _ | p, .drop _ | p, .tick => some p
  | _, .reset => some .closed
  | .closed, .accept _ => some .accepted
  | .accepted, .flush _ => some .flushed
  | .flushed, .tx _ _ _ _ => some .sent
  | .timedOut, .tx _ _ _ _ => some .sent
  | .sent, .rxDiscard _ => some .sent
  | .sent, .rxMatch _ => some .matched
  | .sent, .timeout _ => some .timedOut
  | .matched, .done r => if r.status = .matched then some .closed else none
  | .timedOut, .done r => if r.status = .cancelled ∨ r.status = .exhausted then some .closed else none
  | _, _ => none

/-- How far a history has come in the order of R77, R78; nothing where it breaks it. -/
def progressOf (h : List Event) : Option Progress := h.foldl (fun p e => p.bind (fun q => q.next e)) (some .closed)

/-- R77, R78 and R55 c: the history is in order and `st` is where the order has come to. -/
def OrderInv (s : State) : Prop :=
  match s.st with
  | .idle => progressOf s.hist = some .closed
  | .drain => progressOf s.hist = some .accepted ∧ s.attempts = 0
  | .send => progressOf s.hist = some .flushed ∧ s.attempts = 0 ∨
             progressOf s.hist = some .timedOut ∧ 1 ≤ s.attempts.toNat
  | .wait => progressOf s.hist = some .sent ∧ 1 ≤ s.attempts.toNat

/-- The frames transmitted since the last ACCEPT or RESET, oldest first. -/
def transmitted (h : List Event) : List (Id × Nat × Bytes8) :=
  h.foldl (fun acc e =>
    match e with
    | .accept _ => []
    | .reset => []
    | .tx id dlc data _ => acc ++ [(id, dlc, data)]
    | _ => acc) []

/-- R178, R28: every transmission of a request is the one frame `(cmd_id, 8, q_data)`, and `attempts` counts them. -/
def SameFrameInv (s : State) : Prop :=
  (∀ x ∈ transmitted s.hist, x = (s.cmdId, 8, s.q.data)) ∧
  s.attempts.toNat = min (transmitted s.hist).length 0xFFFFFFFF

/-- Two outcomes that differ at most in the history. -/
def agreeUpToHistory (a b : Host.Outcome State Fault Refusal) : Prop :=
  match a, b with
  | .next t, .next u => ({ t with hist := [] } : State) = { u with hist := [] }
  | .refused x, .refused y => x = y
  | _, _ => False

/-- `t` is reached from `s` by steps that all answer a next state. -/
inductive Reaches : State → State → Prop where
  | refl (s : State) : Reaches s s
  | more (s t u : State) : Reaches s t → step t = .next u → Reaches s u

/-- An infinite run (R177). -/
def IsRun (r : Nat → State) : Prop := ∀ n, step (r n) = .next (r (n + 1))

/-- Whether a move can be taken here: an enabled step of its agent, and well formed. -/
def canTake (m : Move) (s : State) : Bool :=
  match takeMove m s with
  | .next _ => true
  | .fault _ => false
  | .refused _ => false

/-- The move the next step takes: the listed one, else the drawn one, else an enabled one. -/
def nextMove (s : State) : Move :=
  match s.moves with
  | m :: _ => m
  | [] => if canTake (Config.freeMove s.freeCtr) (beginMove { s with freeCtr := s.freeCtr + 1 })
          then Config.freeMove s.freeCtr else ownMove s

/-- Whether a move is a step of the block. -/
def isBlockMove (m : Move) : Bool :=
  match m with
  | .block _ => true
  | _ => false

/-- Whether the block has an enabled step (R161). -/
def blockEnabled (s : State) : Bool := s.busy || s.req.isSome

/-- R173: a block step that stays enabled is eventually taken. -/
def BlockFair (r : Nat → State) : Prop :=
  ∀ n, (∀ m, n ≤ m → blockEnabled (r m) = true) → ∃ m, n ≤ m ∧ isBlockMove (nextMove (r m)) = true

/-- R173: TICK is weakly fair. -/
def TickFair (r : Nat → State) : Prop :=
  ∀ n, (∀ m, n ≤ m → tickEnabled (r m) = true) → ∃ m, n ≤ m ∧ nextMove (r m) = .tick

end Sys2Proof.Machine
end

