-- ==== Sys2Proof/Certificates/Slice0/Obligations.lean ====
section
/-! DEFINITION. The statements for the provers. The instructions are named by kind: `Instr.command k`, `Instr.validReply k`
and `Instr.errorReply k` are, for the eight kinds k, the 24 constructors of `Instr`. -/
open Sys2Proof Sys2Proof.Machine

/-! ### The codec -/

/-- Decode and encode agree on all 24 rows, with every operand at every value (30_encoding.md R98, R113). -/
def Obligations.DecodeOfEncode : Prop := ∀ i : Instr, decode (encode i) = .ok i

/-- The other way: an ID that decodes to a row is that row's ID, so no bit of an ID is dropped (R106). -/
def Obligations.EncodeOfDecode : Prop := ∀ (id : Id) (i : Instr), decode id = .ok i → encode i = id

/-- The IDs that are no row (R103): BASE = 0, and a command shape with the error bit; every other ID is a row. -/
def Obligations.IdsThatAreNoRow : Prop :=
  ∀ id : Id,
    (id.getLsbD 28 = false → decode id = .error .outsideProtocol) ∧
    (id.getLsbD 28 = true → id.getLsbD 27 = false → id.getLsbD 23 = true → decode id = .error .errorWithoutReply) ∧
    (id.getLsbD 28 = true → (id.getLsbD 27 = true ∨ id.getLsbD 23 = false) → ∃ i, decode id = .ok i)

/-- Words of the spec (95 §2.1, §2.2), written out bit by bit, decode to the rows they stand for. -/
def Obligations.WordsOfTheSpecDecode : Prop :=
  decodeTableWord 32 0b10001000000000000001000000101 = some (.pageselect 5 2) ∧
  decodeTableWord 32 0b10101000000001111111100000101 = some (.write 5 0xFF) ∧
  decodeTableWord 32 0b11101000000000000000100000101 = some (.writeR 5 1) ∧
  decodeTableWord 32 0b11011100000000000000000000101 = some (.unlockE 5 0) ∧
  decodeTableWord 32 0b10111011111111111111111111111 = some (.finish 0xFF 0x7FFF) ∧
  decodeTableWord 32 0x005 = none

/-- R121: ENCODE is the OR of the fields, their concatenation and their sum; bit 28 is 1, bits 27 and 23 are 0; the
smallest and the largest command ID. -/
def Obligations.EncodePutsTheFields : Prop :=
  (∀ (d : Dev) (k : Kind) (a : Arg),
    encodeId d k a = (0x10000000#29 ||| (k.code.setWidth 29 <<< 24) ||| (a.setWidth 29 <<< 8) ||| d.setWidth 29) ∧
    encodeId d k a = 1#1 ++ 0#1 ++ k.code ++ 0#1 ++ a ++ d ∧
    (encodeId d k a).toNat = 0x10000000 + k.code.toNat * 0x01000000 + a.toNat * 0x100 + d.toNat ∧
    (encodeId d k a).getLsbD 28 = true ∧ (encodeId d k a).getLsbD 27 = false ∧ (encodeId d k a).getLsbD 23 = false ∧
    0x10000000 ≤ (encodeId d k a).toNat ∧ (encodeId d k a).toNat ≤ 0x177FFFFF) ∧
  encodeId 0 .ping 0 = 0x10000000 ∧ encodeId 0xFF .finish 0x7FFF = 0x177FFFFF ∧ encodeId 0x05 .unlock 0 = 0x13000005

/-- R122: REPLY_ID_FOR sets bit 27; it is idempotent; on a command ID it changes exactly bit 27, and bit 23 stays 0. -/
def Obligations.ReplyIdForSetsBit27 : Prop :=
  (∀ c : Id, replyIdFor c = c ||| 0x08000000 ∧ replyIdFor (replyIdFor c) = replyIdFor c ∧
    (replyIdFor c).getLsbD 23 = c.getLsbD 23) ∧
  (∀ (d : Dev) (k : Kind) (a : Arg),
    replyIdFor (encodeId d k a) ^^^ encodeId d k a = 0x08000000 ∧ (replyIdFor (encodeId d k a)).getLsbD 23 = false) ∧
  replyIdFor 0x13000005 = 0x1B000005

/-- R123, R124, R125: the three bit tests, each by its mask and independent of every other bit; IS_REPLY is false for
every command and true for every reply row; IS_PROTO is 0 for everything below 0x10000000. -/
def Obligations.BitTestsReadOneBit : Prop :=
  (∀ id : Id, isError id = ((id &&& 0x00800000) != 0) ∧ isReply id = ((id &&& 0x08000000) != 0) ∧
    isProto id = id.getLsbD 28) ∧
  (∀ id id' : Id, id.getLsbD 23 = id'.getLsbD 23 → isError id = isError id') ∧
  (∀ (k : Kind) (d : Dev) (a : Arg), isReply (encode (Instr.command k d a)) = false ∧
    isReply (encode (Instr.validReply k d a)) = true ∧ isReply (encode (Instr.errorReply k d a)) = true) ∧
  (∀ id : Id, id.toNat < 0x10000000 → isProto id = false) ∧
  isError 0x1B800005 = true ∧ isError 0x1B000005 = false ∧ isReply 0x13000005 = false ∧ isReply 0x1B000005 = true ∧
  isProto 0x005 = false ∧ isProto 0x10000005 = true

/-- R126: DECODE reads the six bit ranges, is the inverse of field assembly, and undoes ENCODE. -/
def Obligations.DecodeIsInverseOfAssembly : Prop :=
  (∀ id : Id, decodeId id = ⟨id.getLsbD 28, id.getLsbD 27, Kind.ofCode (id.extractLsb' 24 3), id.getLsbD 23,
    id.extractLsb' 8 15, id.extractLsb' 0 8⟩) ∧
  (∀ id : Id, assembleId (decodeId id) = id) ∧ (∀ f : IdFields, decodeId (assembleId f) = f) ∧
  (∀ (d : Dev) (k : Kind) (a : Arg), decodeId (encodeId d k a) = ⟨true, false, k, false, a, d⟩) ∧
  decodeId 0x15000105 = ⟨true, false, .write, false, 1, 5⟩

/-- R127: MATCH leaves the error bit out and compares every other bit, so against the expected reply ID of a command it
holds exactly for BASE = 1, REPLY = 1 and that command's kind, argument and device. -/
def Obligations.MatchIgnoresTheErrorBit : Prop :=
  (∀ id exp : Id, matchId id exp = ((id &&& 0x1F7FFFFF) == exp)) ∧
  (∀ (id : Id) (d : Dev) (k : Kind) (a : Arg),
    (replyIdFor (encodeId d k a)).getLsbD 23 = false ∧
    (matchId id (replyIdFor (encodeId d k a)) = true ↔
      decodeId id = ⟨true, true, k, (decodeId id).error, a, d⟩)) ∧
  matchId 0x1B000005 0x1B000005 = true ∧ matchId 0x1B800005 0x1B000005 = true ∧
  matchId 0x1B000006 0x1B000005 = false ∧ matchId 0x13000005 0x1B000005 = false

/-- R128: the verdict reads only the ID; a match is valid exactly when the error bit is 0. -/
def Obligations.VerdictReadsTheIdOnly : Prop :=
  (∀ (f : Frame) (exp : Id),
    (matchId f.id exp = true → classify f exp = .reply (!isError f.id)) ∧
    (matchId f.id exp = false → classify f exp = .discard)) ∧
  (∀ (f g : Frame) (exp : Id), f.id = g.id → classify f exp = classify g exp) ∧
  classify ⟨0x1B800005, []⟩ 0x1B000005 = .reply false

/-- R129, the source's round-trip property, for every device, kind and argument. -/
def Obligations.RoundTripLaw : Prop :=
  ∀ (d : Dev) (k : Kind) (a : Arg),
    decodeId (replyIdFor (encodeId d k a)) = ⟨true, true, k, false, a, d⟩ ∧
    matchId (replyIdFor (encodeId d k a)) (replyIdFor (encodeId d k a)) = true ∧
    matchId (replyIdFor (encodeId d k a) ||| 0x00800000) (replyIdFor (encodeId d k a)) = true ∧
    matchId (encodeId d k a) (replyIdFor (encodeId d k a)) = false

/-- R130: ENCODE is injective, and MATCH against an expected reply accepts exactly two IDs; so a reply for one command
is never taken for another. Two Writes at the same in-page offset have one argument, whatever their pages. -/
def Obligations.ExactlyTwoIdsMatch : Prop :=
  (∀ (d d' : Dev) (k k' : Kind) (a a' : Arg), encodeId d k a = encodeId d' k' a' → d = d' ∧ k = k' ∧ a = a') ∧
  (∀ (id : Id) (d : Dev) (k : Kind) (a : Arg),
    matchId id (replyIdFor (encodeId d k a)) = true ↔
      id = replyIdFor (encodeId d k a) ∨ id = replyIdFor (encodeId d k a) ||| 0x00800000) ∧
  (∀ (d d' : Dev) (k k' : Kind) (a a' : Arg) (e : Bool),
    matchId (replyIdFor (encodeId d k a) ||| maskIf e 0x00800000) (replyIdFor (encodeId d' k' a')) = true →
      d = d' ∧ k = k' ∧ a = a') ∧
  (∀ c c' : Client, c.position % 0x800 = c'.position % 0x800 → clientArg .write c = clientArg .write c')

/-- R132: a matched frame is valid exactly when its whole ID equals the expected one; `rsp_ok` is that bit, and a frame
returned with `rsp_ok` 0 is a matched error reply. -/
def Obligations.ValidMeansEqualId : Prop :=
  (∀ (id : Id) (d : Dev) (k : Kind) (a : Arg),
    (matchId id (replyIdFor (encodeId d k a)) && !isError id) = (id == replyIdFor (encodeId d k a))) ∧
  (∀ (s t : State) (f : Frame) (rest : List Frame), s.rxq = f :: rest → s.st = .wait →
    takeMove (.block .poll) s = .next t → t.rsp.status = .matched → s.rsp.status = .none →
    matchId f.id s.expId = true ∧ t.rsp.ok = (f.id == s.expId) ∧ (t.rsp.ok = false → isError f.id = true))

/-- R100, R146: for an in-page offset that is a multiple of 8 the source's `off << 5` is the chunk index at bit 8, and
the WRITE ID is bit-identical. -/
def Obligations.WriteArgumentIsTheChunk : Prop :=
  ∀ (off : Nat) (d : Dev), off < 0x800 → off % 8 = 0 →
    off <<< 5 = chunkIndex off <<< 8 ∧ chunkIndex off ≤ 255 ∧
    encode (.write d (BitVec.ofNat 15 (chunkIndex off))) = 0x15000000#29 ||| BitVec.ofNat 29 (off <<< 5) ||| d.setWidth 29

/-- R141 to R148, R149: the ID of each of the 24 rows. -/
def Obligations.IdsOfTheRows : Prop :=
  ∀ (d : Dev) (a : Arg),
    encode (.ping d a) = 0x10000000#29 ||| (a.setWidth 29 <<< 8) ||| d.setWidth 29 ∧
    encode (.pageselect d a) = 0x11000000#29 ||| (a.setWidth 29 <<< 8) ||| d.setWidth 29 ∧
    encode (.lock d a) = 0x12000000#29 ||| (a.setWidth 29 <<< 8) ||| d.setWidth 29 ∧
    encode (.unlock d a) = 0x13000000#29 ||| (a.setWidth 29 <<< 8) ||| d.setWidth 29 ∧
    encode (.erase d a) = 0x14000000#29 ||| (a.setWidth 29 <<< 8) ||| d.setWidth 29 ∧
    encode (.write d a) = 0x15000000#29 ||| (a.setWidth 29 <<< 8) ||| d.setWidth 29 ∧
    encode (.read d a) = 0x16000000#29 ||| (a.setWidth 29 <<< 8) ||| d.setWidth 29 ∧
    encode (.finish d a) = 0x17000000#29 ||| (a.setWidth 29 <<< 8) ||| d.setWidth 29 ∧
    (∀ k : Kind, encode (Instr.validReply k d a) = encode (Instr.command k d a) ||| 0x08000000 ∧
      encode (Instr.errorReply k d a) = encode (Instr.command k d a) ||| 0x08800000)

/-! ### The boundary -/

/-- R237, R105: a request in naturals with a field out of range, an ill-formed frame and a second user of the transport
are refused; a request in range is never wrapped, and where nothing is presented and no session of the reference client is
under way the move `present` puts exactly it on REQ (R48). -/
def Obligations.BoundaryRefusals : Prop :=
  (∀ (r : RawRequest) (s : State),
    (7 < r.kind ∨ 255 < r.dev ∨ 0x7FFF < r.arg ∨ (∃ t, r.timeout = some t ∧ 0xFFFFFFFF < t)) →
      takeMove (.present r) s = .refused .outOfRange) ∧
  (∀ (r : RawRequest), r.kind ≤ 7 → r.dev ≤ 255 → r.arg ≤ 0x7FFF → (∀ t, r.timeout = some t → t ≤ 0xFFFFFFFF) →
    ∃ q, requestOfRaw r = some q ∧ q.kind.code.toNat = r.kind ∧ q.dev.toNat = r.dev ∧ q.arg.toNat = r.arg ∧
      q.data = r.data ∧ q.timeout.map BitVec.toNat = r.timeout ∧
      ∀ s : State, s.req = none → sessionRunning s = false → takeMove (.present r) s = .next { s with req := some q }) ∧
  (∀ (f : RawFrame) (s : State), (2 ^ 29 ≤ f.id ∨ 8 < f.dlc ∨ f.data.length ≠ f.dlc) →
    takeMove (.arrive f) s = .refused .illFormedFrame) ∧
  (∀ (op : TransportOp) (s : State), takeMove (.secondUser op) s = .refused .sharedTransport)

/-- R111: what each pseudo-instruction expands to where its condition holds, and that it is refused where it fails. -/
def Obligations.PseudoInstructions : Prop :=
  (∀ d p, d ≤ 255 → p ≤ 0x7FFF →
    expandPseudo (.pagesel d p) = .ok ⟨.pageselect, d, some p, none, none⟩ ∧
    expandPseudo (.erasepg d p) = .ok ⟨.erase, d, some p, none, none⟩) ∧
  (∀ d off b, d ≤ 255 → off ≤ 0x7F8 → off % 8 = 0 →
    expandPseudo (.writeat d off b) = .ok ⟨.write, d, some (off >>> 3), some b, none⟩) ∧
  (∀ d pos b, d ≤ 255 → pos % 8 = 0 → expandPseudo (.writepos d pos b) = expandPseudo (.writeat d (pos % 0x800) b)) ∧
  (∀ d p, 0x7FFF < p → (∃ e, expandPseudo (.pagesel d p) = .error e) ∧ ∃ e, expandPseudo (.erasepg d p) = .error e) ∧
  (∀ d off b, 0x7F8 < off ∨ off % 8 ≠ 0 → ∃ e, expandPseudo (.writeat d off b) = .error e) ∧
  (∀ d pos b, pos % 8 ≠ 0 → ∃ e, expandPseudo (.writepos d pos b) = .error e)

/-! ### The eight commands -/

/-- R162: in IDLE each of the eight commands is taken: the request is latched, with `T_DEFAULT` where it gives no
timeout, counters and response are cleared, ACCEPT is emitted, and the block goes to DRAIN. Nothing else changes but
that the request leaves the channel. ACCEPT is enabled in no other state, and not with nothing presented. -/
def Obligations.CommandIsAcceptedInIdle : Prop :=
  (∀ (s : State) (r : Request), s.st = .idle → s.req = some r →
    exec (Instr.command r.kind r.dev r.arg) s = .next
      { s with
        st := .drain
        q := { dev := r.dev, kind := r.kind, arg := r.arg, data := r.data, timeout := r.timeout.getD (tDefault s.cfg) }
        attempts := 0, elapsed := 0, sincePoll := 0
        rsp := { status := .none, ok := false, id := 0, dlc := 0, data := Bytes8.fill 0 }
        req := none
        hist := s.hist ++ [.accept { dev := r.dev, kind := r.kind, arg := r.arg, data := r.data,
                                     timeout := r.timeout.getD (tDefault s.cfg) }] }) ∧
  (∀ s : State, s.st ≠ .idle ∨ s.req = none → takeMove (.block .accept) s = .refused .notEnabled) ∧
  tDefault Config.default = 100

/-- The model's convention (log 9), with the defaults of R110: a command that runs while the channel carries no request
has eight 0x00 bytes and no timeout. -/
def Obligations.CommandWithoutRequestTakesDefaults : Prop :=
  ∀ (s : State) (k : Kind) (d : Dev) (a : Arg), s.st = .idle → s.req = none →
    exec (Instr.command k d a) s = exec (Instr.command k d a) { s with req := some ⟨k, d, a, Bytes8.fill 0, none⟩ }

/-- R184: while busy a presented request is held: ACCEPT is not enabled, the command changes nothing, and after every
step of a busy block the request is still presented. -/
def Obligations.CommandIsHeldWhileBusy : Prop :=
  ∀ (s : State) (r : Request), s.st ≠ .idle → s.req = some r →
    exec (Instr.command r.kind r.dev r.arg) s = .next s ∧ takeMove (.block .accept) s = .refused .notEnabled ∧
    ∀ t, step s = .next t → t.req = some r

/-- The frame of the eight commands: the FIFO, CANCEL, the strobe, the client, the parameters and the schedule are
unchanged, no event is removed, and while busy every register of the block is unchanged. -/
def Obligations.CommandFrame : Prop :=
  ∀ (s t : State) (k : Kind) (d : Dev) (a : Arg), exec (Instr.command k d a) s = .next t →
    t.rxq = s.rxq ∧ t.cancel = s.cancel ∧ t.done = s.done ∧ t.txDraw = s.txDraw ∧ t.client = s.client ∧ t.cfg = s.cfg ∧
    t.moves = s.moves ∧ t.freeCtr = s.freeCtr ∧ (∃ es, t.hist = s.hist ++ es) ∧
    (s.st ≠ .idle → t.st = s.st ∧ t.q = s.q ∧ t.attempts = s.attempts ∧ t.elapsed = s.elapsed ∧
      t.sincePoll = s.sincePoll ∧ t.rsp = s.rsp ∧ t.hist = s.hist)

/-! ### The sixteen reply rows -/

/-- R149, R165: in WAIT the valid reply to the outstanding command, at the head of the FIFO, completes the request with
`rsp_ok` 1, whether or not the timeout is due (R183 c) and whether or not `cancel` is set (R180). -/
def Obligations.ValidReplyCompletes : Prop :=
  ∀ (s : State) (f : Frame) (rest : List Frame), s.st = .wait → s.rxq = f :: rest →
    f.id = encode (Instr.validReply s.q.kind s.q.dev s.q.arg) →
    exec (Instr.validReply s.q.kind s.q.dev s.q.arg) s = .next
      { s with
        st := .idle, done := true, sincePoll := 0, rxq := rest
        rsp := responseOf f true
        hist := s.hist ++ [.rxMatch f, .done (responseOf f true)] }

/-- R149, R165, R235: the error reply to the outstanding command completes the request too, with `rsp_ok` 0. -/
def Obligations.ErrorReplyCompletes : Prop :=
  ∀ (s : State) (f : Frame) (rest : List Frame), s.st = .wait → s.rxq = f :: rest →
    f.id = encode (Instr.errorReply s.q.kind s.q.dev s.q.arg) →
    exec (Instr.errorReply s.q.kind s.q.dev s.q.arg) s = .next
      { s with
        st := .idle, done := true, sincePoll := 0, rxq := rest
        rsp := responseOf f false
        hist := s.hist ++ [.rxMatch f, .done (responseOf f false)] }

/-- R149, R103: a reply row for any other command is discarded; before the timeout is due the wait goes on. -/
def Obligations.OtherReplyIsDiscarded : Prop :=
  ∀ (s : State) (i : Instr) (f : Frame) (rest : List Frame), i.role ≠ .command → s.st = .wait → s.rxq = f :: rest →
    f.id = encode i → (i.kind, i.dev, i.arg) ≠ (s.q.kind, s.q.dev, s.q.arg) → s.elapsed ≤ s.q.timeout.toNat →
    exec i s = .next { s with sincePoll := 0, rxq := rest, hist := s.hist ++ [.rxDiscard f] }

/-- A reply row at the head of the FIFO of a waiting block is POLL itself, and in every other state it changes nothing:
no poll is enabled (R161) and the frame stays queued (log 10). -/
def Obligations.ReplyRunsAsPoll : Prop :=
  (∀ (s : State) (i : Instr) (f : Frame) (rest : List Frame), i.role ≠ .command → s.st = .wait → s.rxq = f :: rest →
    f.id = encode i → exec i s = .next (poll s)) ∧
  (∀ (s : State) (i : Instr), i.role ≠ .command → s.st ≠ .wait → exec i s = .next s)

/-- The frame of the sixteen reply rows: the latched request, `attempts`, `elapsed`, CANCEL, the channel, the client,
the parameters and the schedule are unchanged; in WAIT exactly the head of the FIFO goes; no event is removed; the
response registers change only if the request ends MATCHED, CANCELLED or EXHAUSTED. -/
def Obligations.ReplyFrame : Prop :=
  ∀ (s t : State) (i : Instr), i.role ≠ .command → exec i s = .next t →
    t.q = s.q ∧ t.attempts = s.attempts ∧ t.elapsed = s.elapsed ∧ t.cancel = s.cancel ∧ t.txDraw = s.txDraw ∧
    t.req = s.req ∧ t.client = s.client ∧ t.cfg = s.cfg ∧ t.moves = s.moves ∧ t.freeCtr = s.freeCtr ∧
    t.rxq = (if s.st = .wait then s.rxq.tail else s.rxq) ∧ (∃ es, t.hist = s.hist ++ es) ∧
    (t.st ≠ .idle → t.rsp = s.rsp ∧ t.done = s.done)

/-! ### The block's other steps, and the other agents -/

/-- R163: DRAIN flushes the whole FIFO once and goes to SEND; nothing else changes. In every other state it is not
enabled. -/
def Obligations.DrainFlushesTheQueue : Prop :=
  ∀ s : State,
    (s.st = .drain →
      takeMove (.block .drain) s = .next { s with st := .send, rxq := [], hist := s.hist ++ [.flush s.rxq] }) ∧
    (s.st ≠ .drain → takeMove (.block .drain) s = .refused .notEnabled)

/-- R164, R68: SEND transmits the command frame with its 8 payload bytes, counts the attempt and starts a wait. The
result is the transport's draw: the one fixed in advance, else a free value, and the statement holds for every value. In
every other state SEND is not enabled. -/
def Obligations.SendTransmitsTheFrame : Prop :=
  (∀ s : State, s.st = .send → ∃ (r : TxResult) (n : Nat),
    takeMove (.block .send) s = .next
      { s with
        st := .wait, attempts := BitVec.ofNat 32 (min (s.attempts.toNat + 1) 0xFFFFFFFF), elapsed := 0, sincePoll := 0
        txDraw := none, freeCtr := n
        hist := s.hist ++ [.tx (encodeId s.q.dev s.q.kind s.q.arg) 8 s.q.data r] } ∧
    (∀ r', s.txDraw = some r' → r = r' ∧ n = s.freeCtr)) ∧
  (∀ s : State, s.st ≠ .send → takeMove (.block .send) s = .refused .notEnabled)

/-- R165, R183 c: a POLL that takes a matching frame ends the request MATCHED before the timeout is looked at, and
`rsp_ok` is the negation of the frame's error bit. -/
def Obligations.PollTakesTheMatchFirst : Prop :=
  ∀ (s : State) (f : Frame) (rest : List Frame), s.st = .wait → s.rxq = f :: rest → matchId f.id s.expId = true →
    ∃ t, takeMove (.block .poll) s = .next t ∧ t.st = .idle ∧ t.done = true ∧ t.rxq = rest ∧ t.q = s.q ∧
      t.attempts = s.attempts ∧ t.elapsed = s.elapsed ∧ t.cancel = s.cancel ∧ t.req = s.req ∧
      t.rsp = ⟨.matched, !f.id.getLsbD 23, f.id, BitVec.ofNat 4 f.data.length, t.rsp.data⟩ ∧
      (∀ i, i < 8 → t.rsp.data.get i = if i < f.data.length then f.data.getD i 0 else 0) ∧
      t.hist = s.hist ++ [.rxMatch f, .done t.rsp]

/-- R165 to R168, R232: a POLL with no match (an empty FIFO, or a frame it discards) keeps waiting until `elapsed` exceeds
`q_timeout`; then it emits TIMEOUT and ends CANCELLED if `cancel` is 1, else EXHAUSTED if the limit is reached, else it
goes to SEND. Frames behind the polled one stay queued (R183 d). -/
def Obligations.PollWithoutMatch : Prop :=
  ∀ (s : State) (es : List Event) (rest : List Frame), s.st = .wait →
    (s.rxq = [] ∧ rest = [] ∧ es = [] ∨
      ∃ f, s.rxq = f :: rest ∧ matchId f.id s.expId = false ∧ es = [.rxDiscard f]) →
    takeMove (.block .poll) s = .next
      (if s.elapsed ≤ s.q.timeout.toNat then { s with sincePoll := 0, rxq := rest, hist := s.hist ++ es }
       else if s.cancel = true then
         { s with sincePoll := 0, rxq := rest, st := .idle, done := true, rsp := { s.rsp with status := .cancelled }
                  hist := s.hist ++ es ++ [.timeout s.attempts, .done { s.rsp with status := .cancelled }] }
       else if s.cfg.retryLimit ≠ 0 ∧ s.cfg.retryLimit.toNat ≤ s.attempts.toNat then
         { s with sincePoll := 0, rxq := rest, st := .idle, done := true, rsp := { s.rsp with status := .exhausted }
                  hist := s.hist ++ es ++ [.timeout s.attempts, .done { s.rsp with status := .exhausted }] }
       else { s with sincePoll := 0, rxq := rest, st := .send, hist := s.hist ++ es ++ [.timeout s.attempts] })

/-- R103, R106: a POLL discards every frame that is no reply row, the block's own command IDs among them, and none is a
fault. -/
def Obligations.PollDiscardsWhatIsNoReply : Prop :=
  ∀ (s : State) (f : Frame) (rest : List Frame), s.st = .wait → s.rxq = f :: rest → replyInstr f.id = none →
    s.elapsed ≤ s.q.timeout.toNat →
    takeMove (.block .poll) s = .next { s with sincePoll := 0, rxq := rest, hist := s.hist ++ [.rxDiscard f] }

/-- R170, R172: TICK emits its event and counts in WAIT only; it is held exactly in WAIT once `POLL_INTERVAL` ticks have
passed since the last poll. -/
def Obligations.TickCountsInWaitOnly : Prop :=
  ∀ s : State,
    (s.st ≠ .wait → takeMove .tick s = .next { s with hist := s.hist ++ [.tick] }) ∧
    (s.st = .wait → s.sincePoll < s.cfg.pollInterval →
      takeMove .tick s = .next { s with elapsed := s.elapsed + 1, sincePoll := s.sincePoll + 1, hist := s.hist ++ [.tick] }) ∧
    (s.st = .wait → s.cfg.pollInterval ≤ s.sincePoll → takeMove .tick s = .refused .notEnabled)

/-- R64, R63: in every state a well-formed frame is appended to the FIFO while it has room, and lost with a DROP event
when it is full; the block's registers are unchanged. -/
def Obligations.ArrivalIsQueuedOrDropped : Prop :=
  ∀ (s : State) (raw : RawFrame), raw.id < 2 ^ 29 → raw.dlc ≤ 8 → raw.data.length = raw.dlc →
    (s.cfg.rxqDepth = none ∨ (∃ n, s.cfg.rxqDepth = some n ∧ s.rxq.length < n) →
      takeMove (.arrive raw) s = .next { s with rxq := s.rxq ++ [⟨BitVec.ofNat 29 raw.id, raw.data⟩]
                                                hist := s.hist ++ [.arrive ⟨BitVec.ofNat 29 raw.id, raw.data⟩] }) ∧
    ((∃ n, s.cfg.rxqDepth = some n ∧ n ≤ s.rxq.length) →
      takeMove (.arrive raw) s = .next { s with hist := s.hist ++ [.drop ⟨BitVec.ofNat 29 raw.id, raw.data⟩] })

/-- R260, R53, R262: RESET is enabled in every state; it writes the table of reset values, emits RESET and nothing more:
the FIFO keeps its frames, the history its events, the parameters their values. Then STATUS reads 0, CMD_ID 0x10000000,
EXP_ID 0x18000000, and the request port is ready. The initial state is the state after RESET with an empty history, and
every register of the view reads its reset value there (R41). -/
def Obligations.ResetWritesTheTable : Prop :=
  (∀ s : State, ∃ t, takeMove .reset s = .next t ∧
    t.st = .idle ∧ t.q = ⟨0, .ping, 0, Bytes8.fill 0, 0⟩ ∧ t.attempts = 0 ∧ t.elapsed = 0 ∧ t.sincePoll = 0 ∧
    t.rsp = ⟨.none, false, 0, 0, Bytes8.fill 0⟩ ∧ t.cancel = false ∧ t.hist = s.hist ++ [.reset] ∧ t.rxq = s.rxq ∧
    t.cfg = s.cfg ∧ readRegister 0 t = 0 ∧ readRegister 6 t = 0x10000000 ∧ readRegister 7 t = 0x18000000 ∧
    (portsOut t).reqReady = true) ∧
  ({ reset State.reset with hist := [] } : State) = State.reset ∧
  (List.range 10).map (fun i => readRegister i State.reset) =
    [0x00000000, 0x00000000, 0x00000000, 0x00000000, 0x00000000, 0x00000000, 0x10000000, 0x18000000, 0x00000000, 0x00000000]

/-! ### The register view and the ports -/

/-- R42: the fields of STATUS with the codes of R22 and R31, and its reset value. -/
def Obligations.StatusFields : Prop :=
  (∀ s : State,
    (readRegister 0 s).getLsbD 0 = decide (s.st ≠ .idle) ∧ (readRegister 0 s).extractLsb' 1 2 = s.st.code ∧
    (readRegister 0 s).extractLsb' 3 2 = s.rsp.status.code ∧ (readRegister 0 s).getLsbD 5 = s.rsp.ok ∧
    (readRegister 0 s).extractLsb' 6 26 = 0 ∧ (∀ v, takeMove (.writeReg 0 v) s = .next s)) ∧
  [Phase.idle, .drain, .send, .wait].map Phase.code = [0, 1, 2, 3] ∧
  [RspStatus.none, .matched, .cancelled, .exhausted].map RspStatus.code = [0, 1, 2, 3] ∧
  readRegister 0 State.reset = 0

/-- R43, R44, R46, R47 and R41: RSP_ID, RSP_LEN, ATTEMPTS, ELAPSED, CMD_ID and EXP_ID hold what they name, their unused
bits are 0, they are read-only, reading changes nothing, and an index that is not in the table reads 0. -/
def Obligations.RegistersReadTheState : Prop :=
  (∀ s : State,
    (readRegister 1 s).toNat = s.rsp.id.toNat ∧ (readRegister 2 s).toNat = s.rsp.dlc.toNat ∧
    readRegister 5 s = s.attempts ∧ (readRegister 8 s).toNat = min s.elapsed 0xFFFFFFFF ∧
    (readRegister 6 s).toNat = (encodeId s.q.dev s.q.kind s.q.arg).toNat ∧
    (readRegister 7 s).toNat = (encodeId s.q.dev s.q.kind s.q.arg ||| 0x08000000).toNat ∧
    (∀ i v, i ≤ 8 → takeMove (.writeReg i v) s = .next s) ∧ (∀ i, takeMove (.readReg i) s = .next s) ∧
    (∀ i, 10 ≤ i → readRegister i s = 0)) ∧
  readRegister 1 State.reset = 0 ∧ readRegister 2 State.reset = 0 ∧ readRegister 5 State.reset = 0 ∧
  readRegister 8 State.reset = 0

/-- R45, R52: byte i of the response is in bits 8i+7..8i of RSP_DATA_LO (i below 4), of RSP_DATA_HI (from 4 on) and of
the 64-bit port; a port carries eight bytes without loss. -/
def Obligations.DataPacking : Prop :=
  (∀ (s : State) (i : Nat), i < 4 →
    (readRegister 3 s).extractLsb' (8 * i) 8 = s.rsp.data.get i ∧
    (readRegister 4 s).extractLsb' (8 * i) 8 = s.rsp.data.get (4 + i)) ∧
  (∀ (d : Bytes8) (i : Nat), i < 8 → (packPort d).extractLsb' (8 * i) 8 = d.get i) ∧
  (∀ d : Bytes8, unpackPort (packPort d) = d) ∧
  (∀ (s : State) (v : Word), takeMove (.writeReg 3 v) s = .next s ∧ takeMove (.writeReg 4 v) s = .next s) ∧
  readRegister 3 State.reset = 0 ∧ readRegister 4 State.reset = 0

/-- R41, R49: a write to CTRL sets CANCEL from bit 0 and nothing else, CTRL reads CANCEL in bit 0 and zeros, a write to
every other index is ignored, a read changes nothing; CTRL is 0 after reset. -/
def Obligations.OnlyCtrlIsWritable : Prop :=
  (∀ (s : State) (v : Word), takeMove (.writeReg 9 v) s = .next { s with cancel := v.getLsbD 0 } ∧
    (readRegister 9 s).getLsbD 0 = s.cancel ∧ (readRegister 9 s).extractLsb' 1 31 = 0) ∧
  (∀ (s : State) (i : Nat) (v : Word), i ≠ 9 → takeMove (.writeReg i v) s = .next s) ∧
  (∀ (s : State) (i : Nat), takeMove (.readReg i) s = .next s) ∧
  readRegister 9 State.reset = 0

/-! ### What a step runs -/

/-- A step runs the presented command: when the next move is the block's ACCEPT and a request is presented to an idle
block, the step is `exec` of its command, on the state with the strobe cleared and the move taken off the schedule. -/
def Obligations.StepRunsThePresentedCommand : Prop :=
  ∀ (s : State) (ms : List Move) (r : Request), s.moves = .block .accept :: ms → s.st = .idle → s.req = some r →
    step s = exec (Instr.command r.kind r.dev r.arg) { s with moves := ms, done := false }

/-- A step runs the polled reply: when the next move is the block's POLL and the ID at the head of the FIFO decodes to a
reply row, the step is `exec` of that row. -/
def Obligations.StepRunsThePolledReply : Prop :=
  ∀ (s : State) (ms : List Move) (f : Frame) (rest : List Frame) (i : Instr), s.moves = .block .poll :: ms →
    s.st = .wait → s.rxq = f :: rest → decode f.id = .ok i → i.role ≠ .command →
    step s = exec i { s with moves := ms, done := false }

/-- The instruction that `withFetchWord` places is the one the next step runs, in every state (log 8): it answers a
next state, and in it the schedule is as before. -/
def Obligations.PlacedWordIsRun : Prop :=
  ∀ (s : State) (w : Nat) (i : Instr), w < 2 ^ 29 → decodeTableWord 32 w = some i →
    ∃ t, step (s.withFetchWord 32 w) = .next t ∧ t.moves = s.moves ∧
      exec i { s.withFetchWord 32 w with moves := s.moves, done := false } = .next t

/-- The model's choice (log 1, 2): where no move is listed, whatever is drawn, a step answers a next state, because a drawn
move that is not enabled is replaced by one that is. The spec's part is that some step is enabled in every state: R161
with R170. -/
def Obligations.NeverStopsByItself : Prop := ∀ s : State, s.moves = [] → ∃ t, step s = .next t

/-! ### Invariants and whole-machine rules -/

/-- All four invariants hold after reset. -/
def Obligations.InvariantsHoldAtReset : Prop :=
  Inv State.reset ∧ LimitInv State.reset ∧ OrderInv State.reset ∧ SameFrameInv State.reset

/-- R55 and the invariants of R34, R61, R63, R172 and R174: every step keeps them. -/
def Obligations.StepKeepsInv : Prop := ∀ s t : State, Inv s → step s = .next t → Inv t

/-- R181: every step keeps the bound of the retry limit: a request transmits at most `RETRY_LIMIT` times. -/
def Obligations.StepKeepsLimit : Prop := ∀ s t : State, LimitInv s → step s = .next t → LimitInv t

/-- R77, R78: every step keeps the order of the events of a request, and of one request after another. -/
def Obligations.StepKeepsEventOrder : Prop := ∀ s t : State, OrderInv s → step s = .next t → OrderInv t

/-- R178, R28: every step keeps that all transmissions of a request are one frame and that `attempts` counts them. -/
def Obligations.StepKeepsSameFrame : Prop := ∀ s t : State, SameFrameInv s → step s = .next t → SameFrameInv t

/-- R21, R83: the latched request changes only with an ACCEPT or a RESET event. -/
def Obligations.OnlyAcceptAndResetLatch : Prop :=
  ∀ s t : State, step s = .next t →
    t.q = s.q ∨ t.hist = s.hist ++ [.accept t.q] ∧ s.st = .idle ∨ t.hist = s.hist ++ [.reset] ∧ t.q = Latched.reset

/-- R182, R40: from an idle state the response registers hold until the next ACCEPT or RESET. -/
def Obligations.ResponseHoldsUntilAccept : Prop :=
  ∀ s t : State, s.st = .idle → step s = .next t →
    t.rsp = s.rsp ∨ t.rsp = Response.cleared ∧ (t.hist = s.hist ++ [.accept t.q] ∨ t.hist = s.hist ++ [.reset])

/-- R177, R18, R167: a busy block becomes idle only by a matching frame, by a timeout with `cancel` 1, by a timeout at the
retry limit, or by RESET. So with `cancel` 0 and no limit a silent request goes on for ever. -/
def Obligations.BusyEndsOnlyAsListed : Prop :=
  ∀ s t : State, s.st ≠ .idle → step s = .next t → t.st = .idle →
    (∃ f rest, s.st = .wait ∧ s.rxq = f :: rest ∧ matchId f.id s.expId = true ∧ t.rsp.status = .matched) ∨
    (s.st = .wait ∧ s.q.timeout.toNat < s.elapsed ∧ s.cancel = true ∧ t.rsp.status = .cancelled) ∨
    (s.st = .wait ∧ s.q.timeout.toNat < s.elapsed ∧ s.cancel = false ∧ s.cfg.retryLimit ≠ 0 ∧
      s.cfg.retryLimit.toNat ≤ s.attempts.toNat ∧ t.rsp.status = .exhausted) ∨
    t.hist = s.hist ++ [.reset]

/-- R36, R38: no step removes an event from the history, and none changes a parameter. -/
def Obligations.HistoryGrowsParametersStay : Prop :=
  ∀ s t : State, step s = .next t → (∃ es, t.hist = s.hist ++ es) ∧ t.cfg = s.cfg

/-- R174: in a state that meets the invariant, a POLL that times out does so with
`q_timeout + 1 <= elapsed <= q_timeout + POLL_INTERVAL`. -/
def Obligations.TimeoutLatencyBound : Prop :=
  ∀ s t : State, Inv s → s.st = .wait → takeMove (.block .poll) s = .next t →
    (∃ es, t.hist = s.hist ++ es ∧ .timeout s.attempts ∈ es) →
    s.q.timeout.toNat + 1 ≤ s.elapsed ∧ s.elapsed ≤ s.q.timeout.toNat + s.cfg.pollInterval

/-- R166, R167 on a silent bus, with `cancel` 0 and no limit: polled after every tick, an attempt waits through the first
`q_timeout` ticks and times out at the POLL after tick `q_timeout + 1`, whatever the timeout, and is due to be sent
again. -/
def Obligations.SilentWaitTimesOut : Prop :=
  ∀ s : State, s.st = .wait → s.elapsed = 0 → s.sincePoll = 0 → s.rxq = [] → s.cancel = false → s.cfg.retryLimit = 0 →
    1 ≤ s.cfg.pollInterval →
    s.moves = (List.replicate (s.q.timeout.toNat + 1) [Move.tick, Move.block .poll]).flatten →
    (∃ t, Host.Core.run core (2 * s.q.timeout.toNat) s = .next t ∧ t.st = .wait ∧ t.elapsed = s.q.timeout.toNat) ∧
    ∃ t, Host.Core.run core (2 * (s.q.timeout.toNat + 1)) s = .next t ∧ t.st = .send ∧ t.moves = [] ∧
      t.elapsed = s.q.timeout.toNat + 1 ∧ t.attempts = s.attempts ∧
      t.hist = s.hist ++ List.replicate (s.q.timeout.toNat + 1) .tick ++ [.timeout s.attempts]

/-- R140 whole, for every kind, device, argument and payload: a presented request is accepted, the FIFO flushed, the
command frame sent, and a frame with its reply ID, with or without the error bit, completes it MATCHED. -/
def Obligations.RequestRunsToItsReply : Prop :=
  ∀ (s : State) (r : Request) (isErr : Bool) (data : List Byte), s.st = .idle → s.req = some r →
    s.cfg.rxqDepth ≠ some 0 → data.length ≤ 8 →
    s.moves = [.block .accept, .block .drain, .block .send,
      .arrive ⟨(maskIf isErr 0x00800000 ||| 0x08000000 ||| encodeId r.dev r.kind r.arg).toNat, data.length, data⟩,
      .block .poll] →
    ∃ t res, Host.Core.run core 5 s = .next t ∧ t.st = .idle ∧ t.rxq = [] ∧ t.attempts = 1 ∧
      t.rsp = ⟨.matched, !isErr, maskIf isErr 0x00800000 ||| 0x08000000 ||| encodeId r.dev r.kind r.arg,
        BitVec.ofNat 4 data.length, padData data⟩ ∧
      t.hist = s.hist ++ [.accept t.q, .flush s.rxq, .tx (encodeId r.dev r.kind r.arg) 8 r.data res,
        .arrive ⟨maskIf isErr 0x00800000 ||| 0x08000000 ||| encodeId r.dev r.kind r.arg, data⟩,
        .rxMatch ⟨maskIf isErr 0x00800000 ||| 0x08000000 ||| encodeId r.dev r.kind r.arg, data⟩, .done t.rsp]

/-- R175, R233: the result of a TxSend is recorded in the TX event and never read: after a failed send the machine runs on,
for any number of steps, exactly as after a successful one, but for the recorded history. -/
def Obligations.SendResultIsNeverRead : Prop :=
  (∀ (s : State) (r : TxResult),
    (send { s with txDraw := some r }).hist = s.hist ++ [.tx s.cmdId 8 s.q.data r]) ∧
  (∀ (s : State) (n : Nat), s.st = .send →
    agreeUpToHistory (Host.Core.run core n (send { s with txDraw := some .ok }))
      (Host.Core.run core n (send { s with txDraw := some .fail })))

/-- R180: `cancel` is read only when an attempt has timed out: every block step of a state whose wait is not over, or
that takes a matching frame, is the same with `cancel` 0 and 1. -/
def Obligations.CancelIsReadAtATimeoutOnly : Prop :=
  ∀ (s : State) (b : BlockStep) (c : Bool),
    (s.st = .wait → s.elapsed ≤ s.q.timeout.toNat ∨ ∃ f rest, s.rxq = f :: rest ∧ matchId f.id s.expId = true) →
    (∀ t, takeMove (.block b) s = .next t → takeMove (.block b) { s with cancel := c } = .next { t with cancel := c }) ∧
    (∀ e, takeMove (.block b) s = .refused e → takeMove (.block b) { s with cancel := c } = .refused e)

/-- R161: in every state exactly one block step is enabled, but in IDLE with no request presented none is. -/
def Obligations.ExactlyOneBlockStepIsEnabled : Prop :=
  ∀ s : State,
    (s.st = .idle → s.req = none → ∀ b, canTake (.block b) s = false) ∧
    (s.st ≠ .idle ∨ s.req ≠ none → ∃ b, canTake (.block b) s = true ∧ ∀ b', canTake (.block b') s = true → b' = b)

/-! ### The reference client -/

/-- R213: TRANSFORM reverses each 4-byte half, is its own inverse, and is the source's reading of two little-endian words
that are written back big-endian. -/
def Obligations.TransformReversesTheHalves : Prop :=
  (∀ (c : Bytes8) (j i : Nat), j < 2 → i < 4 → (transform c).get (4 * j + i) = c.get (4 * j + 3 - i)) ∧
  (∀ c : Bytes8, transform (transform c) = c) ∧
  (∀ (c : Bytes8) (j i : Nat), j < 2 → i < 4 →
    (transform c).get (4 * j + i) =
      (c.get (4 * j + 3) ++ c.get (4 * j + 2) ++ c.get (4 * j + 1) ++ c.get (4 * j)).extractLsb' (8 * (3 - i)) 8) ∧
  transform ⟨0, 1, 2, 3, 4, 5, 6, 7⟩ = ⟨3, 2, 1, 0, 7, 6, 5, 4⟩

/-- R209, R210, R215, R216, D44: what the reference client makes of a response. An error reply to PING does not matter;
an invalid reply to any other command aborts with its reason; a Write goes on by 8 only if the echo has 8 bytes and is
the payload sent; CANCELLED and EXHAUSTED abort. The client's move makes that of the response registers once its request is
over. -/
def Obligations.ClientReadsTheResponse : Prop :=
  (∀ (c : Client) (r : Response), r.status = .matched →
    (afterResponse .ping r c).session = .pinged ∧
    (afterResponse .unlock r c).session = (if r.ok then .unlocked else .aborted .unlockRejected) ∧
    (r.ok = false → (afterResponse .pageselect r c).session = .aborted .pageselRejected ∧
      (afterResponse .erase r c).session = .aborted .eraseRejected) ∧
    (r.ok = true → afterResponse .pageselect r c = { c with waiting := false, pageSelected := true } ∧
      afterResponse .erase r c =
        { c with waiting := false, currentPage := (c.position / 0x800 + c.pageOffset : Nat), pageSelected := false }) ∧
    (afterResponse .lock r c).session = (if r.ok then .locked else .aborted .lockRejected) ∧
    (afterResponse .finish r c).session = (if r.ok then .finished else .aborted .finishRejected) ∧
    (r.ok = true → r.dlc = 8 → r.data = transform (chunkAt c.image c.position) →
      (afterResponse .write r c).position = c.position + 8 ∧ (afterResponse .write r c).session = c.session) ∧
    (r.ok = false ∨ r.dlc ≠ 8 ∨ r.data ≠ transform (chunkAt c.image c.position) →
      (afterResponse .write r c).session = .aborted (.writeMismatch (c.position + c.pageOffset * 0x800)))) ∧
  (∀ (c : Client) (r : Response) (k : Kind), r.status = .cancelled ∨ r.status = .exhausted →
    (afterResponse k r c).session = .aborted .cancelled) ∧
  (∀ (s : State) (c : Client) (k : Kind), s.client = some c → sessionKind c = some k → c.waiting = true →
    s.st = .idle → s.req = none → takeMove .client s = .next { s with client := some (afterResponse k s.rsp c) })

/-- R212, R214, R215, R217: what the reference client asks for while it programs: PAGESELECT and then ERASE of the
target page when the page changes, else a WRITE of the padded, transformed chunk at its index, and LOCK at the end. The
client's move presents exactly that request, with the default timeout (R207), when the block is ready; so it does with the
request of every other state of the session (R209). -/
def Obligations.ClientProgramsThePages : Prop :=
  (∀ c : Client,
    (c.session = .programming → sessionKind c = some (programKind c)) ∧
    (c.session = .idle → sessionKind c = some .ping) ∧ (c.session = .pinged → sessionKind c = some .unlock) ∧
    (c.session = .locked → sessionKind c = some .finish) ∧
    (c.image.length ≤ c.position → programKind c = .lock) ∧
    (c.position < c.image.length → (c.position / 0x800 + c.pageOffset : Int) ≠ c.currentPage →
      programKind c = (if c.pageSelected then .erase else .pageselect)) ∧
    (c.position < c.image.length → (c.position / 0x800 + c.pageOffset : Int) = c.currentPage → programKind c = .write) ∧
    clientArg .pageselect c = c.position / 0x800 + c.pageOffset ∧ clientArg .erase c = clientArg .pageselect c ∧
    clientArg .write c = (c.position % 0x800) >>> 3 ∧ clientData .write c = transform (chunkAt c.image c.position) ∧
    (∀ i, i < 8 → (chunkAt c.image c.position).get i =
      if c.position + i < c.image.length then c.image.getD (c.position + i) 0 else 0xFF) ∧
    (∀ k, k ≠ .write → clientData k c = Bytes8.fill 0)) ∧
  (∀ (s : State) (c : Client) (k : Kind), s.client = some c → sessionKind c = some k → c.waiting = false →
    s.st = .idle → s.req = none → clientArg k c ≤ 0x7FFF →
    takeMove .client s = .next
      { s with req := some ⟨k, c.dev, BitVec.ofNat 15 (clientArg k c), clientData k c, none⟩
               client := some { c with waiting := true } })
end

