-- ==== Sys2Proof/Laws/Codec.lean ====
section
/-! SUPPORT. Laws of the codec's bit fields (30_encoding.md R90, R91): what one bit of an assembled ID is. -/
namespace Sys2Proof

@[simp] theorem Kind.ofCode_code (k : Kind) : Kind.ofCode k.code = k := by cases k <;> rfl

@[simp] theorem Kind.code_ofCode (c : BitVec 3) : (Kind.ofCode c).code = c := by
  revert c; decide

@[simp] theorem maskIf_getLsbD (b : Bool) (m : Id) (i : Nat) : (maskIf b m).getLsbD i = (b && m.getLsbD i) := by
  cases b <;> simp [maskIf]

/-- The fields are disjoint and cover the ID (R91): the OR of the fields is their concatenation. -/
theorem assembleId_eq_append (f : IdFields) :
    assembleId f = BitVec.ofBool f.proto ++ BitVec.ofBool f.reply ++ f.kind.code ++ BitVec.ofBool f.error ++ f.arg ++ f.dev := by
  apply BitVec.eq_of_getLsbD_eq
  intro i hi
  simp only [assembleId, BitVec.getLsbD_or, BitVec.getLsbD_shiftLeft, BitVec.getLsbD_setWidth, BitVec.getLsbD_append,
    BitVec.getLsbD_ofBool, maskIf_getLsbD]
  interval_cases i <;> simp [baseMask, replyMask, errorMask]

/-- DECODE loses nothing: the fields of an ID assemble to it (R106). -/
theorem assembleId_decodeId (id : Id) : assembleId (decodeId id) = id := by
  rw [assembleId_eq_append]
  apply BitVec.eq_of_getLsbD_eq
  intro i hi
  simp only [decodeId, Kind.code_ofCode, BitVec.getLsbD_append, BitVec.getLsbD_ofBool, BitVec.getLsbD_extractLsb']
  interval_cases i <;> simp

/-- The three IDs of R102 are assemblies of their fields. -/
theorem encodeId_eq_assemble (dev : Dev) (kind : Kind) (arg : Arg) :
    encodeId dev kind arg = assembleId ⟨true, false, kind, false, arg, dev⟩ := by
  simp [encodeId, assembleId, maskIf]

theorem replyIdFor_encodeId (dev : Dev) (kind : Kind) (arg : Arg) :
    replyIdFor (encodeId dev kind arg) = assembleId ⟨true, true, kind, false, arg, dev⟩ := by
  apply BitVec.eq_of_getLsbD_eq
  intro i _
  simp only [replyIdFor, encodeId, assembleId, BitVec.getLsbD_or, maskIf_getLsbD, Bool.true_and, Bool.false_and,
    Bool.or_false]
  ac_rfl

theorem errorReplyIdFor_encodeId (dev : Dev) (kind : Kind) (arg : Arg) :
    errorReplyIdFor (encodeId dev kind arg) = assembleId ⟨true, true, kind, true, arg, dev⟩ := by
  apply BitVec.eq_of_getLsbD_eq
  intro i _
  simp only [errorReplyIdFor, encodeId, assembleId, BitVec.getLsbD_or, maskIf_getLsbD, Bool.true_and]
  ac_rfl

end Sys2Proof

namespace Sys2Proof.Machine

/-- An expected reply ID has REPLY set (R93). -/
theorem replyIdFor_bit27 (c : Id) : (replyIdFor c).getLsbD 27 = true := by
  simp [replyIdFor, replyMask]

/-- A frame without the reply bit is never matched (R103). -/
theorem matchId_of_not_reply {id c : Id} (h : id.getLsbD 27 = false) : matchId id (replyIdFor c) = false := by
  have hb := replyIdFor_bit27 c
  rw [matchId, beq_eq_false_iff_ne]
  rintro he
  rw [← he, BitVec.getLsbD_and, h] at hb
  simp at hb

/-- MATCH leaves bit 23 out and compares every other bit (R127). -/
theorem matchId_iff (id exp : Id) :
    matchId id exp = true ↔ exp.getLsbD 23 = false ∧ ∀ i, i ≠ 23 → id.getLsbD i = exp.getLsbD i := by
  have hm : ∀ i, (~~~errorMask).getLsbD i = (decide (i < 29) && decide (i ≠ 23)) := by
    intro i
    by_cases hi : i < 29
    · interval_cases i <;> simp [errorMask]
    · rw [BitVec.getLsbD_of_ge _ i (by omega)]; simp [hi]
  rw [matchId, beq_iff_eq]
  constructor
  · rintro rfl
    refine ⟨by simp [errorMask], fun i hi => ?_⟩
    rw [BitVec.getLsbD_and, hm]
    by_cases h29 : i < 29
    · simp [hi, h29]
    · simp [h29, BitVec.getLsbD_of_ge id i (by omega)]
  · rintro ⟨h23, h⟩
    apply BitVec.eq_of_getLsbD_eq
    intro i hi
    rw [BitVec.getLsbD_and, hm]
    by_cases h' : i = 23
    · subst h'; rw [h23]; simp only [ne_eq, not_true_eq_false, decide_false, Bool.and_false]
    · rw [h i h', decide_eq_true hi, decide_eq_true h', Bool.and_true, Bool.and_true]

end Sys2Proof.Machine
end

