-- ==== Sys2Proof/Laws/State.lean ====
section
/-! SUPPORT. One lemma per field per update, each true by unfolding the update once, so that no proof unfolds a record
update. -/
namespace Sys2Proof.Machine

/-- A draw changes the draw fixed in advance or the counter of free values, nothing else. -/
theorem drawTxResult_state (s : State) :
    (drawTxResult s).2 = { s with txDraw := none, freeCtr := (drawTxResult s).2.freeCtr } := by
  unfold drawTxResult
  split
  · rfl
  · rename_i h; rw [← h]

@[simp] theorem emit_st (e : Event) (s : State) : (emit e s).st = s.st := rfl
@[simp] theorem emit_q (e : Event) (s : State) : (emit e s).q = s.q := rfl
@[simp] theorem emit_attempts (e : Event) (s : State) : (emit e s).attempts = s.attempts := rfl
@[simp] theorem emit_elapsed (e : Event) (s : State) : (emit e s).elapsed = s.elapsed := rfl
@[simp] theorem emit_sincePoll (e : Event) (s : State) : (emit e s).sincePoll = s.sincePoll := rfl
@[simp] theorem emit_rsp (e : Event) (s : State) : (emit e s).rsp = s.rsp := rfl
@[simp] theorem emit_cancel (e : Event) (s : State) : (emit e s).cancel = s.cancel := rfl
@[simp] theorem emit_done (e : Event) (s : State) : (emit e s).done = s.done := rfl
@[simp] theorem emit_hist (e : Event) (s : State) : (emit e s).hist = s.hist ++ [e] := rfl
@[simp] theorem emit_rxq (e : Event) (s : State) : (emit e s).rxq = s.rxq := rfl
@[simp] theorem emit_txDraw (e : Event) (s : State) : (emit e s).txDraw = s.txDraw := rfl
@[simp] theorem emit_req (e : Event) (s : State) : (emit e s).req = s.req := rfl
@[simp] theorem emit_client (e : Event) (s : State) : (emit e s).client = s.client := rfl
@[simp] theorem emit_cfg (e : Event) (s : State) : (emit e s).cfg = s.cfg := rfl
@[simp] theorem emit_moves (e : Event) (s : State) : (emit e s).moves = s.moves := rfl
@[simp] theorem emit_freeCtr (e : Event) (s : State) : (emit e s).freeCtr = s.freeCtr := rfl

@[simp] theorem acceptRequest_st (r : Request) (s : State) : (acceptRequest r s).st = .drain := rfl
@[simp] theorem acceptRequest_q (r : Request) (s : State) : (acceptRequest r s).q = latchedOf s.cfg r := rfl
@[simp] theorem acceptRequest_attempts (r : Request) (s : State) : (acceptRequest r s).attempts = 0 := rfl
@[simp] theorem acceptRequest_elapsed (r : Request) (s : State) : (acceptRequest r s).elapsed = 0 := rfl
@[simp] theorem acceptRequest_sincePoll (r : Request) (s : State) : (acceptRequest r s).sincePoll = 0 := rfl
@[simp] theorem acceptRequest_rsp (r : Request) (s : State) : (acceptRequest r s).rsp = Response.cleared := rfl
@[simp] theorem acceptRequest_cancel (r : Request) (s : State) : (acceptRequest r s).cancel = s.cancel := rfl
@[simp] theorem acceptRequest_done (r : Request) (s : State) : (acceptRequest r s).done = s.done := rfl
@[simp] theorem acceptRequest_hist (r : Request) (s : State) : (acceptRequest r s).hist = s.hist ++ [.accept (latchedOf s.cfg r)] := rfl
@[simp] theorem acceptRequest_rxq (r : Request) (s : State) : (acceptRequest r s).rxq = s.rxq := rfl
@[simp] theorem acceptRequest_txDraw (r : Request) (s : State) : (acceptRequest r s).txDraw = s.txDraw := rfl
@[simp] theorem acceptRequest_req (r : Request) (s : State) : (acceptRequest r s).req = none := rfl
@[simp] theorem acceptRequest_client (r : Request) (s : State) : (acceptRequest r s).client = s.client := rfl
@[simp] theorem acceptRequest_cfg (r : Request) (s : State) : (acceptRequest r s).cfg = s.cfg := rfl
@[simp] theorem acceptRequest_moves (r : Request) (s : State) : (acceptRequest r s).moves = s.moves := rfl
@[simp] theorem acceptRequest_freeCtr (r : Request) (s : State) : (acceptRequest r s).freeCtr = s.freeCtr := rfl

@[simp] theorem holdRequest_st (r : Request) (s : State) : (holdRequest r s).st = s.st := rfl
@[simp] theorem holdRequest_q (r : Request) (s : State) : (holdRequest r s).q = s.q := rfl
@[simp] theorem holdRequest_attempts (r : Request) (s : State) : (holdRequest r s).attempts = s.attempts := rfl
@[simp] theorem holdRequest_elapsed (r : Request) (s : State) : (holdRequest r s).elapsed = s.elapsed := rfl
@[simp] theorem holdRequest_sincePoll (r : Request) (s : State) : (holdRequest r s).sincePoll = s.sincePoll := rfl
@[simp] theorem holdRequest_rsp (r : Request) (s : State) : (holdRequest r s).rsp = s.rsp := rfl
@[simp] theorem holdRequest_cancel (r : Request) (s : State) : (holdRequest r s).cancel = s.cancel := rfl
@[simp] theorem holdRequest_done (r : Request) (s : State) : (holdRequest r s).done = s.done := rfl
@[simp] theorem holdRequest_hist (r : Request) (s : State) : (holdRequest r s).hist = s.hist := rfl
@[simp] theorem holdRequest_rxq (r : Request) (s : State) : (holdRequest r s).rxq = s.rxq := rfl
@[simp] theorem holdRequest_txDraw (r : Request) (s : State) : (holdRequest r s).txDraw = s.txDraw := rfl
@[simp] theorem holdRequest_req (r : Request) (s : State) : (holdRequest r s).req = some r := rfl
@[simp] theorem holdRequest_client (r : Request) (s : State) : (holdRequest r s).client = s.client := rfl
@[simp] theorem holdRequest_cfg (r : Request) (s : State) : (holdRequest r s).cfg = s.cfg := rfl
@[simp] theorem holdRequest_moves (r : Request) (s : State) : (holdRequest r s).moves = s.moves := rfl
@[simp] theorem holdRequest_freeCtr (r : Request) (s : State) : (holdRequest r s).freeCtr = s.freeCtr := rfl

@[simp] theorem drain_st (s : State) : (drain s).st = .send := rfl
@[simp] theorem drain_q (s : State) : (drain s).q = s.q := rfl
@[simp] theorem drain_attempts (s : State) : (drain s).attempts = s.attempts := rfl
@[simp] theorem drain_elapsed (s : State) : (drain s).elapsed = s.elapsed := rfl
@[simp] theorem drain_sincePoll (s : State) : (drain s).sincePoll = s.sincePoll := rfl
@[simp] theorem drain_rsp (s : State) : (drain s).rsp = s.rsp := rfl
@[simp] theorem drain_cancel (s : State) : (drain s).cancel = s.cancel := rfl
@[simp] theorem drain_done (s : State) : (drain s).done = s.done := rfl
@[simp] theorem drain_hist (s : State) : (drain s).hist = s.hist ++ [.flush s.rxq] := rfl
@[simp] theorem drain_rxq (s : State) : (drain s).rxq = [] := rfl
@[simp] theorem drain_txDraw (s : State) : (drain s).txDraw = s.txDraw := rfl
@[simp] theorem drain_req (s : State) : (drain s).req = s.req := rfl
@[simp] theorem drain_client (s : State) : (drain s).client = s.client := rfl
@[simp] theorem drain_cfg (s : State) : (drain s).cfg = s.cfg := rfl
@[simp] theorem drain_moves (s : State) : (drain s).moves = s.moves := rfl
@[simp] theorem drain_freeCtr (s : State) : (drain s).freeCtr = s.freeCtr := rfl

@[simp] theorem send_st (s : State) : (send s).st = .wait := rfl
@[simp] theorem send_q (s : State) : (send s).q = s.q := by
  rw [send, txSend, drawTxResult_state]; rfl
@[simp] theorem send_attempts (s : State) : (send s).attempts = countAttempt s.attempts := rfl
@[simp] theorem send_elapsed (s : State) : (send s).elapsed = 0 := rfl
@[simp] theorem send_sincePoll (s : State) : (send s).sincePoll = 0 := rfl
@[simp] theorem send_rsp (s : State) : (send s).rsp = s.rsp := by
  rw [send, txSend, drawTxResult_state]; rfl
@[simp] theorem send_cancel (s : State) : (send s).cancel = s.cancel := by
  rw [send, txSend, drawTxResult_state]; rfl
@[simp] theorem send_done (s : State) : (send s).done = s.done := by
  rw [send, txSend, drawTxResult_state]; rfl
@[simp] theorem send_hist (s : State) : (send s).hist = s.hist ++ [.tx s.cmdId 8 s.q.data (drawTxResult s).1] := by
  rw [send, txSend, drawTxResult_state]; rfl
@[simp] theorem send_rxq (s : State) : (send s).rxq = s.rxq := by
  rw [send, txSend, drawTxResult_state]; rfl
@[simp] theorem send_req (s : State) : (send s).req = s.req := by
  rw [send, txSend, drawTxResult_state]; rfl
@[simp] theorem send_client (s : State) : (send s).client = s.client := by
  rw [send, txSend, drawTxResult_state]; rfl
@[simp] theorem send_cfg (s : State) : (send s).cfg = s.cfg := by
  rw [send, txSend, drawTxResult_state]; rfl
@[simp] theorem send_moves (s : State) : (send s).moves = s.moves := by
  rw [send, txSend, drawTxResult_state]; rfl

@[simp] theorem complete_st (x : RspStatus) (s : State) : (complete x s).st = .idle := rfl
@[simp] theorem complete_q (x : RspStatus) (s : State) : (complete x s).q = s.q := rfl
@[simp] theorem complete_attempts (x : RspStatus) (s : State) : (complete x s).attempts = s.attempts := rfl
@[simp] theorem complete_elapsed (x : RspStatus) (s : State) : (complete x s).elapsed = s.elapsed := rfl
@[simp] theorem complete_sincePoll (x : RspStatus) (s : State) : (complete x s).sincePoll = s.sincePoll := rfl
@[simp] theorem complete_rsp (x : RspStatus) (s : State) : (complete x s).rsp = { s.rsp with status := x } := rfl
@[simp] theorem complete_cancel (x : RspStatus) (s : State) : (complete x s).cancel = s.cancel := rfl
@[simp] theorem complete_done (x : RspStatus) (s : State) : (complete x s).done = true := rfl
@[simp] theorem complete_hist (x : RspStatus) (s : State) : (complete x s).hist = s.hist ++ [.done { s.rsp with status := x }] := rfl
@[simp] theorem complete_rxq (x : RspStatus) (s : State) : (complete x s).rxq = s.rxq := rfl
@[simp] theorem complete_txDraw (x : RspStatus) (s : State) : (complete x s).txDraw = s.txDraw := rfl
@[simp] theorem complete_req (x : RspStatus) (s : State) : (complete x s).req = s.req := rfl
@[simp] theorem complete_client (x : RspStatus) (s : State) : (complete x s).client = s.client := rfl
@[simp] theorem complete_cfg (x : RspStatus) (s : State) : (complete x s).cfg = s.cfg := rfl
@[simp] theorem complete_moves (x : RspStatus) (s : State) : (complete x s).moves = s.moves := rfl
@[simp] theorem complete_freeCtr (x : RspStatus) (s : State) : (complete x s).freeCtr = s.freeCtr := rfl

@[simp] theorem takeMatch_st (f : Frame) (ok : Bool) (s : State) : (takeMatch f ok s).st = .idle := rfl
@[simp] theorem takeMatch_q (f : Frame) (ok : Bool) (s : State) : (takeMatch f ok s).q = s.q := rfl
@[simp] theorem takeMatch_attempts (f : Frame) (ok : Bool) (s : State) : (takeMatch f ok s).attempts = s.attempts := rfl
@[simp] theorem takeMatch_elapsed (f : Frame) (ok : Bool) (s : State) : (takeMatch f ok s).elapsed = s.elapsed := rfl
@[simp] theorem takeMatch_sincePoll (f : Frame) (ok : Bool) (s : State) : (takeMatch f ok s).sincePoll = s.sincePoll := rfl
@[simp] theorem takeMatch_rsp (f : Frame) (ok : Bool) (s : State) : (takeMatch f ok s).rsp = { status := .matched, ok := ok, id := f.id, dlc := BitVec.ofNat 4 f.data.length, data := padData f.data } := rfl
@[simp] theorem takeMatch_cancel (f : Frame) (ok : Bool) (s : State) : (takeMatch f ok s).cancel = s.cancel := rfl
@[simp] theorem takeMatch_done (f : Frame) (ok : Bool) (s : State) : (takeMatch f ok s).done = true := rfl
@[simp] theorem takeMatch_hist (f : Frame) (ok : Bool) (s : State) : (takeMatch f ok s).hist = s.hist ++ [.rxMatch f] ++ [.done { status := .matched, ok := ok, id := f.id, dlc := BitVec.ofNat 4 f.data.length, data := padData f.data }] := rfl
@[simp] theorem takeMatch_rxq (f : Frame) (ok : Bool) (s : State) : (takeMatch f ok s).rxq = s.rxq := rfl
@[simp] theorem takeMatch_txDraw (f : Frame) (ok : Bool) (s : State) : (takeMatch f ok s).txDraw = s.txDraw := rfl
@[simp] theorem takeMatch_req (f : Frame) (ok : Bool) (s : State) : (takeMatch f ok s).req = s.req := rfl
@[simp] theorem takeMatch_client (f : Frame) (ok : Bool) (s : State) : (takeMatch f ok s).client = s.client := rfl
@[simp] theorem takeMatch_cfg (f : Frame) (ok : Bool) (s : State) : (takeMatch f ok s).cfg = s.cfg := rfl
@[simp] theorem takeMatch_moves (f : Frame) (ok : Bool) (s : State) : (takeMatch f ok s).moves = s.moves := rfl
@[simp] theorem takeMatch_freeCtr (f : Frame) (ok : Bool) (s : State) : (takeMatch f ok s).freeCtr = s.freeCtr := rfl

@[simp] theorem reset_st (s : State) : (reset s).st = .idle := rfl
@[simp] theorem reset_q (s : State) : (reset s).q = Latched.reset := rfl
@[simp] theorem reset_attempts (s : State) : (reset s).attempts = 0 := rfl
@[simp] theorem reset_elapsed (s : State) : (reset s).elapsed = 0 := rfl
@[simp] theorem reset_sincePoll (s : State) : (reset s).sincePoll = 0 := rfl
@[simp] theorem reset_rsp (s : State) : (reset s).rsp = Response.cleared := rfl
@[simp] theorem reset_cancel (s : State) : (reset s).cancel = false := rfl
@[simp] theorem reset_done (s : State) : (reset s).done = false := rfl
@[simp] theorem reset_hist (s : State) : (reset s).hist = s.hist ++ [.reset] := rfl
@[simp] theorem reset_rxq (s : State) : (reset s).rxq = s.rxq := rfl
@[simp] theorem reset_txDraw (s : State) : (reset s).txDraw = s.txDraw := rfl
@[simp] theorem reset_req (s : State) : (reset s).req = s.req := rfl
@[simp] theorem reset_client (s : State) : (reset s).client = s.client := rfl
@[simp] theorem reset_cfg (s : State) : (reset s).cfg = s.cfg := rfl
@[simp] theorem reset_moves (s : State) : (reset s).moves = s.moves := rfl
@[simp] theorem reset_freeCtr (s : State) : (reset s).freeCtr = s.freeCtr := rfl

@[simp] theorem beginMove_st (s : State) : (beginMove s).st = s.st := rfl
@[simp] theorem beginMove_q (s : State) : (beginMove s).q = s.q := rfl
@[simp] theorem beginMove_attempts (s : State) : (beginMove s).attempts = s.attempts := rfl
@[simp] theorem beginMove_elapsed (s : State) : (beginMove s).elapsed = s.elapsed := rfl
@[simp] theorem beginMove_sincePoll (s : State) : (beginMove s).sincePoll = s.sincePoll := rfl
@[simp] theorem beginMove_rsp (s : State) : (beginMove s).rsp = s.rsp := rfl
@[simp] theorem beginMove_cancel (s : State) : (beginMove s).cancel = s.cancel := rfl
@[simp] theorem beginMove_done (s : State) : (beginMove s).done = false := rfl
@[simp] theorem beginMove_hist (s : State) : (beginMove s).hist = s.hist := rfl
@[simp] theorem beginMove_rxq (s : State) : (beginMove s).rxq = s.rxq := rfl
@[simp] theorem beginMove_txDraw (s : State) : (beginMove s).txDraw = s.txDraw := rfl
@[simp] theorem beginMove_req (s : State) : (beginMove s).req = s.req := rfl
@[simp] theorem beginMove_client (s : State) : (beginMove s).client = s.client := rfl
@[simp] theorem beginMove_cfg (s : State) : (beginMove s).cfg = s.cfg := rfl
@[simp] theorem beginMove_moves (s : State) : (beginMove s).moves = s.moves := rfl
@[simp] theorem beginMove_freeCtr (s : State) : (beginMove s).freeCtr = s.freeCtr := rfl

@[simp] theorem cmdId_emit (e : Event) (s : State) : (emit e s).cmdId = s.cmdId := rfl
@[simp] theorem expId_emit (e : Event) (s : State) : (emit e s).expId = s.expId := rfl

end Sys2Proof.Machine
end

