-- ==== Sys2Proof/Laws/Ops.lean ====
section
/-! SUPPORT. What each shared operation can do, said once: the results of a POLL, of an arrival, of a tick, of the two
meanings behind the 24 rows. -/
namespace Sys2Proof.Machine

/-- A register write changes CANCEL or nothing (R41, R49). -/
theorem writeRegister_eq (index : Nat) (value : Word) (s : State) :
    writeRegister index value s = { s with cancel := if index = 9 then value.getLsbD 0 else s.cancel } := by
  unfold writeRegister
  split
  · rfl
  · rename_i h; rw [if_neg h]

/-- An arrival is queued or dropped (R64). -/
theorem arrive_cases (f : Frame) (s : State) :
    rxqHasRoom s = true ∧ arrive f s = emit (.arrive f) { s with rxq := s.rxq ++ [f] } ∨
    rxqHasRoom s = false ∧ arrive f s = emit (.drop f) s := by
  unfold arrive
  cases rxqHasRoom s <;> simp

/-- A tick counts in WAIT only (R170). -/
theorem tick_eq (s : State) :
    tick s = { emit .tick s with elapsed := if s.st = .wait then s.elapsed + 1 else s.elapsed,
                                 sincePoll := if s.st = .wait then s.sincePoll + 1 else s.sincePoll } := by
  unfold tick
  cases h : s.st <;> simp [emit]

/-- The timeout test after no match (R165 to R167): keep waiting, cancel, give up, or retransmit. -/
theorem afterNoMatch_cases (s : State) :
    timedOut s = false ∧ afterNoMatch s = s ∨
    timedOut s = true ∧ s.cancel = true ∧ afterNoMatch s = complete .cancelled (emit (.timeout s.attempts) s) ∨
    timedOut s = true ∧ s.cancel = false ∧ limitHit s = true ∧
      afterNoMatch s = complete .exhausted (emit (.timeout s.attempts) s) ∨
    timedOut s = true ∧ s.cancel = false ∧ limitHit s = false ∧
      afterNoMatch s = { emit (.timeout s.attempts) s with st := .send } := by
  have hl : limitHit (emit (.timeout s.attempts) s) = limitHit s := rfl
  unfold afterNoMatch stopOrRetry
  rw [hl, emit_cancel]
  cases h1 : timedOut s <;> cases h2 : s.cancel <;> cases h3 : limitHit s <;> simp [h2]

/-- What POLL makes of the answer of its RxPoll (R165): a match ends the request; else, after a discard if there was a
frame, the timeout test. -/
theorem examine_cases (p : Option Frame) (s : State) :
    (∃ f, p = some f ∧ matchId f.id s.expId = true ∧ examine p s = takeMatch f (!isError f.id) s) ∨
    (∃ f, p = some f ∧ matchId f.id s.expId = false ∧ examine p s = afterNoMatch (emit (.rxDiscard f) s)) ∨
    (p = none ∧ examine p s = afterNoMatch s) := by
  cases p with
  | none => exact .inr (.inr ⟨rfl, rfl⟩)
  | some f =>
    cases h : matchId f.id s.expId with
    | true => exact .inl ⟨f, rfl, h, by simp [examine, classify, h]⟩
    | false => exact .inr (.inl ⟨f, rfl, h, by simp [examine, classify, h]⟩)

/-- A POLL on an empty FIFO. -/
theorem poll_nil {s : State} (h : s.rxq = []) : poll s = examine none { s with sincePoll := 0 } := by
  simp [poll, rxPoll, h]

/-- A POLL takes the head of the FIFO (R65, R79). -/
theorem poll_cons {s : State} {f : Frame} {rest : List Frame} (h : s.rxq = f :: rest) :
    poll s = examine (some f) { s with sincePoll := 0, rxq := rest } := by
  simp [poll, rxPoll, h]

/-- A polled frame that matches (R165). -/
theorem examine_match {f : Frame} {s : State} (h : matchId f.id s.expId = true) :
    examine (some f) s = takeMatch f (!isError f.id) s := by
  simp [examine, classify, h]

/-- A polled frame that does not match (R165). -/
theorem examine_discard {f : Frame} {s : State} (h : matchId f.id s.expId = false) :
    examine (some f) s = afterNoMatch (emit (.rxDiscard f) s) := by
  simp [examine, classify, h]

/-- A POLL without a match, on an empty FIFO or on a frame it discards: one discard event at most, then the timeout
test (R165). -/
theorem poll_without_match {s : State} {es : List Event} {rest : List Frame}
    (h : s.rxq = [] ∧ rest = [] ∧ es = [] ∨
      ∃ f, s.rxq = f :: rest ∧ matchId f.id s.expId = false ∧ es = [.rxDiscard f]) :
    poll s = afterNoMatch { s with sincePoll := 0, rxq := rest, hist := s.hist ++ es } := by
  rcases h with ⟨h, rfl, rfl⟩ | ⟨f, h, hm, rfl⟩
  · rw [poll_nil h]; simp [examine, ← h]
  · rw [poll_cons h, examine_discard (by exact hm)]; rfl

/-- Everything a POLL can do (R165 to R168): take a match, keep waiting, end CANCELLED, end EXHAUSTED, or retransmit. -/
theorem poll_cases (s : State) : ∃ (es : List Event) (rest : List Frame), rest = s.rxq.tail ∧
    ((∃ f, s.rxq = f :: rest ∧ matchId f.id s.expId = true ∧ es = [] ∧
        poll s = takeMatch f (!isError f.id) { s with sincePoll := 0, rxq := rest }) ∨
     (es = [] ∨ ∃ f, es = [.rxDiscard f]) ∧
      (s.elapsed ≤ s.q.timeout.toNat ∧ poll s = { s with sincePoll := 0, rxq := rest, hist := s.hist ++ es } ∨
       s.q.timeout.toNat < s.elapsed ∧ s.cancel = true ∧
        poll s = complete .cancelled
          { s with sincePoll := 0, rxq := rest, hist := s.hist ++ es ++ [.timeout s.attempts] } ∨
       s.q.timeout.toNat < s.elapsed ∧ s.cancel = false ∧ limitHit s = true ∧
        poll s = complete .exhausted
          { s with sincePoll := 0, rxq := rest, hist := s.hist ++ es ++ [.timeout s.attempts] } ∨
       s.q.timeout.toNat < s.elapsed ∧ s.cancel = false ∧ limitHit s = false ∧
        poll s = { s with st := .send, sincePoll := 0, rxq := rest, hist := s.hist ++ es ++ [.timeout s.attempts] })) := by
  have key (es : List Event) (rest : List Frame) (u : State)
      (hu : u = { s with sincePoll := 0, rxq := rest, hist := s.hist ++ es }) (h : poll s = afterNoMatch u) :
      s.elapsed ≤ s.q.timeout.toNat ∧ poll s = u ∨
      s.q.timeout.toNat < s.elapsed ∧ s.cancel = true ∧
        poll s = complete .cancelled (emit (.timeout s.attempts) u) ∨
      s.q.timeout.toNat < s.elapsed ∧ s.cancel = false ∧ limitHit s = true ∧
        poll s = complete .exhausted (emit (.timeout s.attempts) u) ∨
      s.q.timeout.toNat < s.elapsed ∧ s.cancel = false ∧ limitHit s = false ∧
        poll s = { emit (.timeout s.attempts) u with st := .send } := by
    rw [h]; subst hu
    rcases afterNoMatch_cases { s with sincePoll := 0, rxq := rest, hist := s.hist ++ es } with
      ⟨a, e⟩ | ⟨a, b, e⟩ | ⟨a, b, c, e⟩ | ⟨a, b, c, e⟩
    · exact .inl ⟨by simpa [timedOut] using a, e⟩
    · exact .inr (.inl ⟨by simpa [timedOut] using a, b, e⟩)
    · exact .inr (.inr (.inl ⟨by simpa [timedOut] using a, b, c, e⟩))
    · exact .inr (.inr (.inr ⟨by simpa [timedOut] using a, b, c, e⟩))
  obtain hq | ⟨f, rest, hq⟩ : s.rxq = [] ∨ ∃ f rest, s.rxq = f :: rest := by
    rcases s.rxq with _ | ⟨f, rest⟩ <;> simp
  · exact ⟨[], [], by rw [hq]; rfl, .inr ⟨.inl rfl, key _ _ _ rfl (poll_without_match (.inl ⟨hq, rfl, rfl⟩))⟩⟩
  · cases hm : matchId f.id s.expId with
    | true => exact ⟨[], rest, by rw [hq]; rfl, .inl ⟨f, hq, hm, rfl, by rw [poll_cons hq, examine_match (by exact hm)]⟩⟩
    | false =>
      exact ⟨[.rxDiscard f], rest, by rw [hq]; rfl,
        .inr ⟨.inr ⟨f, rfl⟩, key _ _ _ rfl (poll_without_match (.inr ⟨f, hq, hm, rfl⟩))⟩⟩

/-- The count of R28 as a natural number. -/
theorem countAttempt_toNat (n : Word) : (countAttempt n).toNat = min (n.toNat + 1) 0xFFFFFFFF := by
  simp [countAttempt]

/-- Polling the frame at the head is POLL. -/
theorem pollFrame_head {s : State} {f : Frame} {rest : List Frame} (h : s.rxq = f :: rest) :
    pollFrame f s = poll s := by
  rw [poll_cons h, pollFrame, h]; rfl

/-- Every command row is `runCommand` of its kind. -/
theorem exec_command (kind : Kind) (dev : Dev) (arg : Arg) (s : State) :
    exec (Instr.command kind dev arg) s = runCommand kind dev arg s := by
  cases kind <;> rfl

/-- Every row `K.R` is `runReply` of its ID. -/
theorem exec_validReply (kind : Kind) (dev : Dev) (arg : Arg) (s : State) :
    exec (Instr.validReply kind dev arg) s = runReply (replyIdFor (encodeId dev kind arg)) s := by
  cases kind <;> rfl

/-- Every row `K.E` is `runReply` of its ID. -/
theorem exec_errorReply (kind : Kind) (dev : Dev) (arg : Arg) (s : State) :
    exec (Instr.errorReply kind dev arg) s = runReply (errorReplyIdFor (encodeId dev kind arg)) s := by
  cases kind <;> rfl

/-- A command is taken in IDLE and held otherwise. -/
theorem runCommand_cases (kind : Kind) (dev : Dev) (arg : Arg) (s : State) :
    s.st = .idle ∧ runCommand kind dev arg s = .next (acceptRequest (presentedRequest kind dev arg s) s) ∨
    s.st ≠ .idle ∧ runCommand kind dev arg s = .next (holdRequest (presentedRequest kind dev arg s) s) := by
  unfold runCommand
  cases s.st <;> simp

/-- A reply row is polled in WAIT and stays queued otherwise. -/
theorem runReply_cases (id : Id) (s : State) :
    s.st = .wait ∧ runReply id s = .next (pollFrame { id := id, data := headData s.rxq } s) ∨
    s.st ≠ .wait ∧ runReply id s = .next s := by
  unfold runReply
  cases s.st <;> simp

/-- The operands of the presented request are the instruction's; payload and timeout are the channel's (R48). -/
theorem presentedRequest_of_req {s : State} {r : Request} (h : s.req = some r) :
    presentedRequest r.kind r.dev r.arg s = r := by
  simp [presentedRequest, h]

end Sys2Proof.Machine
end

