-- ==== Sys2Proof/Laws/PerInstr.lean ====
section
/-! SUPPORT. The family `Shape`: the fixed bits of every row's ID (30_encoding.md R98: a command has r = 0, e = 0; a valid
reply r = 1, e = 0; an error reply r = 1, e = 1; bit 28 is 1). -/
namespace Sys2Proof.Laws.Shape

/-- BASE, REPLY and ERROR of the row's ID are those of its role (R98). -/
def Statement (i : Instr) : Prop :=
  Machine.isProto (encode i) = true ∧
  Machine.isReply (encode i) = decide (i.role ≠ .command) ∧
  Machine.isError (encode i) = decide (i.role = .errorReply)

/-- The fixed bits of an assembled ID. -/
theorem assembleId_fixed (f : IdFields) :
    Machine.isProto (assembleId f) = f.proto ∧ Machine.isReply (assembleId f) = f.reply ∧
      Machine.isError (assembleId f) = f.error := by
  rw [assembleId_eq_append]
  simp only [Machine.isProto, Machine.isReply, Machine.isError, BitVec.getLsbD_append, BitVec.getLsbD_ofBool]
  simp

theorem ping (dev : Dev) (arg : Arg) : Statement (.ping dev arg) := assembleId_fixed _
theorem pageselect (dev : Dev) (arg : Arg) : Statement (.pageselect dev arg) := assembleId_fixed _
theorem lock (dev : Dev) (arg : Arg) : Statement (.lock dev arg) := assembleId_fixed _
theorem unlock (dev : Dev) (arg : Arg) : Statement (.unlock dev arg) := assembleId_fixed _
theorem erase (dev : Dev) (arg : Arg) : Statement (.erase dev arg) := assembleId_fixed _
theorem write (dev : Dev) (arg : Arg) : Statement (.write dev arg) := assembleId_fixed _
theorem read (dev : Dev) (arg : Arg) : Statement (.read dev arg) := assembleId_fixed _
theorem finish (dev : Dev) (arg : Arg) : Statement (.finish dev arg) := assembleId_fixed _
theorem pingR (dev : Dev) (arg : Arg) : Statement (.pingR dev arg) := assembleId_fixed _
theorem pageselectR (dev : Dev) (arg : Arg) : Statement (.pageselectR dev arg) := assembleId_fixed _
theorem lockR (dev : Dev) (arg : Arg) : Statement (.lockR dev arg) := assembleId_fixed _
theorem unlockR (dev : Dev) (arg : Arg) : Statement (.unlockR dev arg) := assembleId_fixed _
theorem eraseR (dev : Dev) (arg : Arg) : Statement (.eraseR dev arg) := assembleId_fixed _
theorem writeR (dev : Dev) (arg : Arg) : Statement (.writeR dev arg) := assembleId_fixed _
theorem readR (dev : Dev) (arg : Arg) : Statement (.readR dev arg) := assembleId_fixed _
theorem finishR (dev : Dev) (arg : Arg) : Statement (.finishR dev arg) := assembleId_fixed _
theorem pingE (dev : Dev) (arg : Arg) : Statement (.pingE dev arg) := assembleId_fixed _
theorem pageselectE (dev : Dev) (arg : Arg) : Statement (.pageselectE dev arg) := assembleId_fixed _
theorem lockE (dev : Dev) (arg : Arg) : Statement (.lockE dev arg) := assembleId_fixed _
theorem unlockE (dev : Dev) (arg : Arg) : Statement (.unlockE dev arg) := assembleId_fixed _
theorem eraseE (dev : Dev) (arg : Arg) : Statement (.eraseE dev arg) := assembleId_fixed _
theorem writeE (dev : Dev) (arg : Arg) : Statement (.writeE dev arg) := assembleId_fixed _
theorem readE (dev : Dev) (arg : Arg) : Statement (.readE dev arg) := assembleId_fixed _
theorem finishE (dev : Dev) (arg : Arg) : Statement (.finishE dev arg) := assembleId_fixed _

end Sys2Proof.Laws.Shape
end

