-- ==== Sys2Proof/Laws/Ports.lean ====
section
/-! SUPPORT. What the moves of the input ports do (10_state.md R50). -/
namespace Sys2Proof.Machine

/-- The port `cancel` drives the level that CTRL bit 0 is (R39, R50), and nothing else. -/
theorem takeMove_cancelMove (p : PortsIn) (s : State) :
    takeMove p.cancelMove s = .next { s with cancel := p.cancel } := by
  rw [PortsIn.cancelMove, takeMove, writeRegister_eq]
  cases p.cancel <;> rfl

/-- While `rst` is 1 the sample is a RESET and no step of the block (R239 a). -/
theorem moves_of_rst {p : PortsIn} (h : p.rst = true) (s : State) :
    p.moves s = .ok (.reset :: p.cancelMove :: p.requestMoves s ++ if p.tick then [.tick] else []) := by
  simp [PortsIn.moves, h]

/-- The receive ports carry well-formed frames only (R61). -/
theorem wellFormed_of_rxAnswer {p : PortsIn} {f : Frame} (h : p.rxAnswer = .ok (some f)) : f.wellFormed := by
  unfold PortsIn.rxAnswer at h
  split at h
  · split at h
    · cases h; exact (List.length_take_le _ _).trans ‹_›
    · cases h
  · cases h

end Sys2Proof.Machine
end

