-- ==== Sys2Proof/Laws/Step.lean ====
section
/-! SUPPORT. What a move can do, said once (`Moved`), and that every step is a move: each invariant follows by cases on
`Moved`. -/
namespace Sys2Proof.Machine

/-- The result of a move: a step of the block, the transport, the timebase or reset, or a change of what the host and
the environment drive. -/
inductive Moved (s : State) : State → Prop where
  | accept (r : Request) (idle : s.st = .idle) (presented : s.req = some r) : Moved s (acceptRequest r s)
  | drain (h : s.st = .drain) : Moved s (drain s)
  | send (h : s.st = .send) : Moved s (send s)
  | poll (h : s.st = .wait) : Moved s (poll s)
  | arrive (f : Frame) (h : f.wellFormed) : Moved s (arrive f s)
  | tick (h : tickEnabled s = true) : Moved s (tick s)
  | reset : Moved s (reset s)
  | host (txDraw : Option TxResult) (req : Option Request) (client : Option Client) (cancel : Bool) :
      Moved s { s with txDraw := txDraw, req := req, client := client, cancel := cancel }

/-- A reply row runs as the frame with its ID (R149). -/
theorem exec_replyInstr {id : Id} {i : Instr} (h : replyInstr id = some i) (s : State) :
    exec i s = runReply id s := by
  have hid := assembleId_decodeId id
  rw [replyInstr, decode] at h
  generalize hp : (decodeId id).proto = p at h
  generalize hr : (decodeId id).reply = r at h
  generalize he : (decodeId id).error = e at h
  have hf : decodeId id = ⟨p, r, (decodeId id).kind, e, (decodeId id).arg, (decodeId id).dev⟩ := by
    rw [← hp, ← hr, ← he]
  rw [hf] at hid
  cases p <;> cases r <;> cases e <;> simp only [reduceCtorEq] at h
  · cases hk : (decodeId id).kind <;> simp [hk, Instr.command, Instr.role] at h
  · have hi : i = Instr.validReply (decodeId id).kind (decodeId id).dev (decodeId id).arg := by
      cases hk : (decodeId id).kind <;> simpa [hk, Instr.validReply, Instr.role] using h.symm
    rw [hi, exec_validReply, replyIdFor_encodeId, hid]
  · have hi : i = Instr.errorReply (decodeId id).kind (decodeId id).dev (decodeId id).arg := by
      cases hk : (decodeId id).kind <;> simpa [hk, Instr.errorReply, Instr.role] using h.symm
    rw [hi, exec_errorReply, errorReplyIdFor_encodeId, hid]

/-- Whatever is at the head of the FIFO, the block's poll is POLL (R165). -/
theorem pollHead_eq {s : State} (h : s.st = .wait) : pollHead s = .next (poll s) := by
  unfold pollHead
  split
  · rfl
  · rename_i f rest hq
    split
    · rename_i i hi
      rw [exec_replyInstr hi, runReply, h]
      simp only [hq, headData]
      exact congrArg _ (pollFrame_head hq)
    · rfl

/-- A presented request that the block takes is ACCEPTed whole (R162). -/
theorem exec_requestInstr {s : State} {r : Request} (hi : s.st = .idle) (hr : s.req = some r) :
    exec (requestInstr r) s = .next (acceptRequest r s) := by
  rw [requestInstr, exec_command, runCommand, hi, presentedRequest_of_req hr]

theorem moved_of_blockMove {b : BlockStep} {s t : State} (h : blockMove b s = .next t) : Moved s t := by
  unfold blockMove at h
  split at h
  · rename_i hi
    split at h
    · rename_i r hr
      rw [exec_requestInstr hi hr] at h
      cases h; exact .accept r hi hr
    · cases h
  · rename_i hd; cases h; exact .drain hd
  · rename_i hs; cases h; exact .send hs
  · rename_i hw; rw [pollHead_eq hw] at h; cases h; exact .poll hw
  · cases h

theorem moved_of_clientStep {s t : State} (h : clientStep s = .next t) : Moved s t := by
  simp only [clientStep, clientRead, clientAsk] at h
  repeat' (split at h)
  all_goals first
    | (cases h; done)
    | (cases h; exact .host s.txDraw _ _ s.cancel)

/-- Every move with a next state is one of `Moved`. -/
theorem moved_of_takeMove {m : Move} {s t : State} (h : takeMove m s = .next t) : Moved s t := by
  cases m with
  | block b => exact moved_of_blockMove h
  | arrive raw =>
    simp only [takeMove] at h
    split at h
    · rename_i f hf
      cases h
      rw [frameOfRaw] at hf
      split at hf
      · rename_i hw
        cases hf
        simp only [RawFrame.wellFormed, Bool.and_eq_true, decide_eq_true_eq] at hw
        exact .arrive _ (show raw.data.length ≤ 8 by omega)
      · cases hf
    · cases h
  | txResult r => cases h; exact .host _ s.req s.client s.cancel
  | tick =>
    simp only [takeMove] at h
    split at h
    · rename_i he; cases h; exact .tick he
    · cases h
  | present raw =>
    simp only [takeMove, presentMove] at h
    repeat' (split at h)
    all_goals first
      | (cases h; done)
      | (cases h; exact .host s.txDraw _ s.client s.cancel)
  | writeReg i v =>
    simp only [takeMove, writeRegister_eq] at h
    cases h; exact .host s.txDraw s.req s.client _
  | readReg i => cases h; exact .host s.txDraw s.req s.client s.cancel
  | session dev image off last =>
    simp only [takeMove, startSession] at h
    repeat' (split at h)
    all_goals first
      | (cases h; done)
      | (cases h; exact .host s.txDraw s.req _ s.cancel)
  | client => exact moved_of_clientStep h
  | reset => cases h; exact .reset
  | secondUser op => cases h

/-- Every step is a move from the state with the strobe cleared and the schedule advanced. -/
theorem moved_of_step {s t : State} (h : step s = .next t) :
    ∃ (moves : List Move) (freeCtr : Nat), Moved { s with done := false, moves := moves, freeCtr := freeCtr } t := by
  simp only [step, stepAgents, takeFreeMove] at h
  split at h
  · exact ⟨_, s.freeCtr, moved_of_takeMove h⟩
  · split at h
    · rename_i u hu
      cases h; exact ⟨s.moves, s.freeCtr + 1, moved_of_takeMove hu⟩
    · exact ⟨s.moves, s.freeCtr + 1, moved_of_takeMove h⟩
    · exact ⟨s.moves, s.freeCtr + 1, moved_of_takeMove h⟩

/-- The move the block, or else the timebase, can always take. -/
theorem takeMove_ownMove (s : State) : ∃ t, takeMove (ownMove s) s = .next t := by
  cases hs : s.st with
  | idle =>
    cases hr : s.req with
    | none => exact ⟨tick s, by simp [ownMove, hs, hr, takeMove, tickEnabled]⟩
    | some r => exact ⟨acceptRequest r s, by simp [ownMove, hs, hr, takeMove, blockMove, exec_requestInstr hs hr]⟩
  | drain => exact ⟨drain s, by simp [ownMove, hs, takeMove, blockMove]⟩
  | send => exact ⟨send s, by simp [ownMove, hs, takeMove, blockMove]⟩
  | wait => exact ⟨poll s, by simp [ownMove, hs, takeMove, blockMove, pollHead_eq hs]⟩

/-- The block's POLL as a move (R165). -/
theorem takeMove_poll {s : State} (h : s.st = .wait) : takeMove (.block .poll) s = .next (poll s) := by
  simp [takeMove, blockMove, h, pollHead_eq h]

/-- A property that every move keeps, and that does not read the strobe or the schedule, every step keeps. -/
theorem keeps_of_moved {P : State → Prop}
    (h0 : ∀ s done moves freeCtr, P s → P { s with done := done, moves := moves, freeCtr := freeCtr })
    (h : ∀ s t, P s → Moved s t → P t) : ∀ s t, P s → step s = .next t → P t := by
  intro s t hs hst
  obtain ⟨moves, freeCtr, hm⟩ := moved_of_step hst
  exact h _ _ (h0 _ _ _ _ hs) hm

/-- The order of R77 after one more event. -/
theorem progressOf_append (h : List Event) (e : Event) :
    progressOf (h ++ [e]) = (progressOf h).bind (fun p => p.next e) := by
  simp [progressOf, List.foldl_append]

/-- The frames transmitted after one more event. -/
theorem transmitted_append (h : List Event) (e : Event) :
    transmitted (h ++ [e]) =
      match e with
      | .accept _ => []
      | .reset => []
      | .tx id dlc data _ => transmitted h ++ [(id, dlc, data)]
      | _ => transmitted h := by
  cases e <;> simp only [transmitted, List.foldl_append, List.foldl_cons, List.foldl_nil]

/-- A run takes its first step. -/
theorem run_succ {n : Nat} {M : Host.Core} {s t : M.State} (h : M.step s = .next t) : M.run (n + 1) s = M.run n t := by
  rw [Host.Core.run, h]

/-- A property that holds at the start and that every step keeps holds in every state reached. -/
theorem holds_of_reaches {P : State → Prop} (keep : ∀ s t, P s → step s = .next t → P t) {s t : State}
    (h : Reaches s t) (hs : P s) : P t := by
  induction h with
  | refl => exact hs
  | more t u _ hstep ih => exact keep t u ih hstep

end Sys2Proof.Machine
end

