-- ==== Sys2Proof/Machine/ScriptText.lean ====
section
/-! DEFINITION. The text of requests and scripts (30_encoding.md R110 to R112): characters to words, words to lines, lines
to a `Script`. DESIGN CHOICE (log 19) where R110 gives no grammar: words are separated by white space or commas, the
fields of a line stand in the order R110 prints them, a block step in brackets may share a line with another step, and a
line that does not read is refused as a whole script. -/
namespace Sys2Proof.Machine

/-- The reader's state while it splits text into lines of words: the word and the line read so far (both reversed), the
lines before (reversed), and whether a comment is being skipped. -/
structure Lexer where
  word : List Char
  line : List (List Char)
  lines : List (List (List Char))
  comment : Bool

/-- End of a word. -/
def endWord (l : Lexer) : Lexer :=
  match l.word with
  | [] => l
  | w => { l with word := [], line := w.reverse :: l.line }

/-- End of a line; a comment ends with it. -/
def endLine (l : Lexer) : Lexer :=
  let m := endWord l
  match m.line with
  | [] => { m with comment := false }
  | ws => { m with line := [], lines := ws.reverse :: m.lines, comment := false }

/-- One character. A parenthesis opens a line of its own, and `)` takes the next word, `xN`, into its line. DESIGN CHOICE
(log 19): a step in brackets is a line of its own too, whatever else stands on its line, as in `(TICK 1 [POLL]) x101` of
95_test_vectors.md S6; R112 does not say whether it may share a line. -/
def lexChar (l : Lexer) (c : Char) : Lexer :=
  if c = '\n' then endLine l
  else if l.comment then l
  else if c = ';' then { endWord l with comment := true }
  else if c = ' ' ∨ c = '\t' ∨ c = ',' then endWord l
  else if c = '(' then { endLine l with lines := [['(']] :: (endLine l).lines }
  else if c = ')' then { endLine l with line := [[')']] }
  else if c = '[' then { endLine l with word := ['['] }
  else if c = ']' then endLine { l with word := ']' :: l.word }
  else { l with word := c :: l.word }

/-- The lines of a text, each a list of words, without comments and blank lines. -/
def lexText (text : List Char) : List (List (List Char)) :=
  (endLine (text.foldl lexChar { word := [], line := [], lines := [], comment := false })).lines.reverse

/-- The value of a decimal digit. -/
def decDigit (c : Char) : Option Nat :=
  if '0'.toNat ≤ c.toNat ∧ c.toNat ≤ '9'.toNat then some (c.toNat - '0'.toNat) else none

/-- The value of a hexadecimal digit. -/
def hexDigit (c : Char) : Option Nat :=
  if 'a'.toNat ≤ c.toNat ∧ c.toNat ≤ 'f'.toNat then some (c.toNat - 'a'.toNat + 10)
  else if 'A'.toNat ≤ c.toNat ∧ c.toNat ≤ 'F'.toNat then some (c.toNat - 'A'.toNat + 10)
  else decDigit c

/-- Digits in a base, most significant first. -/
def readDigits (digit : Char → Option Nat) (base : Nat) (cs : List Char) (acc : Nat) : Option Nat :=
  match cs with
  | [] => some acc
  | c :: rest => (digit c).bind fun d => readDigits digit base rest (acc * base + d)

/-- An integer, decimal or `0x` hex (R110). DESIGN CHOICE (log 19): digits after a leading zero, as in 010, are decimal;
R110 leaves the octal form of the source's rule out and does not say whether such an integer is then refused. -/
def readInt (w : List Char) : Option Nat :=
  match w with
  | [] => none
  | '0' :: 'x' :: d :: rest => readDigits hexDigit 16 (d :: rest) 0
  | d :: rest => readDigits decDigit 10 (d :: rest) 0

/-- A two-digit hex byte (R110). -/
def readByte (w : List Char) : Option Byte :=
  match w with
  | [a, b] => (readDigits hexDigit 16 [a, b] 0).map (BitVec.ofNat 8)
  | _ => none

/-- The bytes of a list of words. -/
def readBytes (ws : List (List Char)) : Option (List Byte) := ws.mapM readByte

/-- Eight bytes. -/
def readBytes8 (ws : List (List Char)) : Option Bytes8 :=
  match readBytes ws with
  | some [a, b, c, d, e, f, g, h] => some ⟨a, b, c, d, e, f, g, h⟩
  | _ => none

/-- The rest of a word that begins with `key`. -/
def afterKey (key : String) (w : List Char) : Option (List Char) :=
  if key.toList.isPrefixOf w then some (w.drop key.toList.length) else none

/-- A field `key=<int>` at the head of the words, where it stands; the rest of the words. -/
def readIntField (key : String) (ws : List (List Char)) : Option (Option Nat × List (List Char)) :=
  match ws with
  | [] => some (none, [])
  | w :: rest =>
    match afterKey key w with
    | none => some (none, ws)
    | some v => (readInt v).map fun n => (some n, rest)

/-- The field `data=<b0> ... <b7>` at the head of the words, where it stands. -/
def readDataField (ws : List (List Char)) : Option (Option Bytes8 × List (List Char)) :=
  match ws with
  | [] => some (none, [])
  | w :: rest =>
    match afterKey "data=" w with
    | none => some (none, ws)
    | some v => (readBytes8 (v :: rest.take 7)).map fun d => (some d, rest.drop 7)

/-- The fields of a request after its mnemonic (R110). -/
def readRequest (kind : Kind) (ws : List (List Char)) : Option Line :=
  (readIntField "dev=" ws).bind fun dev =>
  (readIntField "arg=" dev.2).bind fun arg =>
  (readDataField arg.2).bind fun data =>
  (readIntField "timeout=" data.2).bind fun timeout =>
  match dev.1, timeout.2 with
  | some d, [] => some (.request { kind := kind, dev := d, arg := arg.1, data := data.1, timeout := timeout.1 })
  | _, _ => none

/-- The mnemonics of R94. -/
def readKind (w : List Char) : Option Kind :=
  if w = "PING".toList then some .ping
  else if w = "PAGESELECT".toList then some .pageselect
  else if w = "LOCK".toList then some .lock
  else if w = "UNLOCK".toList then some .unlock
  else if w = "ERASE".toList then some .erase
  else if w = "WRITE".toList then some .write
  else if w = "READ".toList then some .read
  else if w = "FINISH".toList then some .finish
  else none

/-- Two integers and nothing more. -/
def readTwoInts (ws : List (List Char)) : Option (Nat × Nat) :=
  match ws with
  | [a, b] => (readInt a).bind fun x => (readInt b).map fun y => (x, y)
  | _ => none

/-- Two integers and eight bytes. -/
def readTwoIntsBytes (ws : List (List Char)) : Option (Nat × Nat × Bytes8) :=
  (readTwoInts (ws.take 2)).bind fun p => (readBytes8 (ws.drop 2)).map fun d => (p.1, p.2, d)

/-- The pseudo-instructions of R111. -/
def readPseudo (w : List Char) (ws : List (List Char)) : Option Line :=
  if w = "PAGESEL".toList then (readTwoInts ws).map fun p => .pseudo (.pagesel p.1 p.2)
  else if w = "ERASEPG".toList then (readTwoInts ws).map fun p => .pseudo (.erasepg p.1 p.2)
  else if w = "WRITEAT".toList then (readTwoIntsBytes ws).map fun p => .pseudo (.writeat p.1 p.2.1 p.2.2)
  else if w = "WRITEPOS".toList then (readTwoIntsBytes ws).map fun p => .pseudo (.writepos p.1 p.2.1 p.2.2)
  else none

/-- `ARRIVE id=<id> [data=<bytes>]` (R112). -/
def readArrive (ws : List (List Char)) : Option Line :=
  (readIntField "id=" ws).bind fun id =>
  match id.1, id.2 with
  | some n, [] => some (.arrive n [])
  | some n, w :: rest => (afterKey "data=" w).bind fun v => (readBytes (v :: rest)).map fun d => .arrive n d
  | none, _ => none

/-- The environment lines of R112 and the block steps in brackets, each the only step of its words: `lexChar` gives a step in
brackets a line of its own (DESIGN CHOICE, log 19). -/
def readEnvLine (w : List Char) (ws : List (List Char)) : Option Line :=
  if w = "ARRIVE".toList then readArrive ws
  else if w = "TICK".toList then
    match ws with
    | [n] => (readInt n).map .tick
    | _ => none
  else if w = "TXRESULT".toList then
    if ws = ["ok".toList] then some (.txResult .ok) else if ws = ["fail".toList] then some (.txResult .fail) else none
  else if w = "CANCEL".toList then
    if ws = ["0".toList] then some (.cancel false) else if ws = ["1".toList] then some (.cancel true) else none
  else if ws ≠ [] then none
  else if w = "RESET".toList then some .reset
  else if w = "[ACCEPT]".toList then some (.step .accept)
  else if w = "[DRAIN]".toList then some (.step .drain)
  else if w = "[SEND]".toList then some (.step .send)
  else if w = "[POLL]".toList then some (.step .poll)
  else none

/-- The words of a line without its label `name:` (R110). -/
def withoutLabel (ws : List (List Char)) : List (List Char) :=
  match ws with
  | [] => []
  | w :: rest => if w.getLast? = some ':' then rest else ws

/-- One line of words. -/
def readLine (ws : List (List Char)) : Option Line :=
  match ws with
  | [] => none
  | w :: rest =>
    match readKind w with
    | some kind => readRequest kind rest
    | none =>
      match readPseudo w rest with
      | some l => some l
      | none => readEnvLine w rest

/-- The script below a line, read from the last line up: the script so far, and for each `)` still open its count and
the script that follows it. -/
structure ScriptReader where
  body : Script
  outer : List (Nat × Script)

/-- The line above what was read. -/
def readAbove (ws : List (List Char)) (r : ScriptReader) : Option ScriptReader :=
  match ws with
  | [[')'], 'x' :: n] => (readInt n).map fun k => { body := .done, outer := (k, r.body) :: r.outer }
  | [['(']] =>
    match r.outer with
    | [] => none
    | (k, rest) :: outer => some { body := .rep r.body k rest, outer := outer }
  | _ =>
    match withoutLabel ws with
    | [] => some r
    | ws => (readLine ws).map fun l => { r with body := .line l r.body }

/-- All lines, last first. -/
def readLines (lines : List (List (List Char))) : Option ScriptReader :=
  match lines with
  | [] => some { body := .done, outer := [] }
  | ws :: rest => (readLines rest).bind (readAbove ws)

/-- The script of a text; nothing where a line does not read or the parentheses do not match. -/
def readScript (text : String) : Option Script :=
  match readLines (lexText text.toList) with
  | some { body := sc, outer := [] } => some sc
  | _ => none

end Sys2Proof.Machine
end

