-- ==== Sys2Proof/Tests/Slice0.lean ====
section
/-! SUPPORT. Tests: expected results are those of 95_test_vectors.md (W, S, X, H and P name its vectors) or are computed by
hand from the rule a comment names. Each is about one step. At the end stands a witness for every statement of
Certificates/Slice0/Obligations.lean that has hypotheses. -/
namespace Sys2Proof.Tests
open Sys2Proof.Machine

/-- What holds of the next state; nothing where there is none. -/
def after {α : Type} (o : Host.Outcome State Fault Refusal) (f : State → α) : Option α :=
  match o with
  | .next t => some (f t)
  | .fault _ => none
  | .refused _ => none

/-- The refusal. -/
def refusalOf (o : Host.Outcome State Fault Refusal) : Option Refusal :=
  match o with
  | .next _ => none
  | .fault _ => none
  | .refused r => some r

/-- The reset state with the parameters of 95: 1 ms, `POLL_INTERVAL` 1, no limit, an unbounded FIFO. -/
def base : State := { State.reset with cfg := ⟨0, 1, 1000000, none⟩ }

/-- `base` with this request presented. -/
def asked (kind : Kind) (arg : Arg) : State := { base with req := some ⟨kind, 5, arg, Bytes8.zero, none⟩ }

/-- A waiting block after one transmission to device 5, with `q_timeout` 100. -/
def waiting (kind : Kind) (arg : Arg) (elapsed : Nat) (rxq : List Frame) : State :=
  { base with st := .wait, q := ⟨5, kind, arg, Bytes8.zero, 100⟩, attempts := 1, elapsed := elapsed, rxq := rxq }

/-- A frame with no data. -/
def bare (id : Id) : Frame := ⟨id, []⟩

/-- A client in the middle of PROGRAM: device 5, page offset 2. -/
def programming (image : List Byte) (position : Nat) (currentPage : Int) : Client :=
  { dev := 5, image := image, pageOffset := 2, lastPage := 63, session := .programming, position := position
    currentPage := currentPage, pageSelected := false, waiting := false }

/-! ### Well-formedness: an ill-formed term for each check, and a well-formed one at the end of each range -/

theorem test_wf_request_kind : RawRequest.wellFormed ⟨8, 5, 0, Bytes8.zero, none⟩ = false := by decide
theorem test_wf_request_dev : RawRequest.wellFormed ⟨7, 256, 0, Bytes8.zero, none⟩ = false := by decide
theorem test_wf_request_arg : RawRequest.wellFormed ⟨7, 255, 0x8000, Bytes8.zero, none⟩ = false := by decide
theorem test_wf_request_timeout : RawRequest.wellFormed ⟨7, 255, 0x7FFF, Bytes8.zero, some (2 ^ 32)⟩ = false := by decide
theorem test_wf_request_largest : RawRequest.wellFormed ⟨7, 255, 0x7FFF, Bytes8.zero, some (2 ^ 32 - 1)⟩ = true := by decide
theorem test_wf_frame_id : RawFrame.wellFormed ⟨0x20000000, 0, []⟩ = false := by decide
theorem test_wf_frame_dlc : RawFrame.wellFormed ⟨0, 9, [0, 0, 0, 0, 0, 0, 0, 0, 0]⟩ = false := by decide
theorem test_wf_frame_length : RawFrame.wellFormed ⟨0, 2, [0]⟩ = false := by decide
theorem test_wf_frame_largest : RawFrame.wellFormed ⟨0x1FFFFFFF, 8, [0, 0, 0, 0, 0, 0, 0, 0]⟩ = true := by decide
theorem test_wf_pagesel : Pseudo.wellFormed (.pagesel 256 0) = false ∧ Pseudo.wellFormed (.pagesel 5 0x8000) = false ∧
    Pseudo.wellFormed (.pagesel 255 0x7FFF) = true := by decide
theorem test_wf_erasepg : Pseudo.wellFormed (.erasepg 256 0) = false ∧ Pseudo.wellFormed (.erasepg 5 0x8000) = false ∧
    Pseudo.wellFormed (.erasepg 255 0x7FFF) = true := by decide
theorem test_wf_writeat : Pseudo.wellFormed (.writeat 256 0 Bytes8.zero) = false ∧
    Pseudo.wellFormed (.writeat 5 0x800 Bytes8.zero) = false ∧ Pseudo.wellFormed (.writeat 5 0x7FC Bytes8.zero) = false ∧
    Pseudo.wellFormed (.writeat 255 0x7F8 Bytes8.zero) = true := by decide
theorem test_wf_writepos : Pseudo.wellFormed (.writepos 256 0 Bytes8.zero) = false ∧
    Pseudo.wellFormed (.writepos 5 0x804 Bytes8.zero) = false ∧ Pseudo.wellFormed (.writepos 255 0x808 Bytes8.zero) = true := by
  decide

/-! ### Decoding: the words of 95 §2.2, one per constructor, and the bits of R98 written out -/

theorem test_decode_ping : decodeTableWord 32 0x10000005 = some (.ping 5 0) ∧
    decodeTableWord 32 0x18000005 = some (.pingR 5 0) ∧ decodeTableWord 32 0x18800005 = some (.pingE 5 0) := by decide
theorem test_decode_pageselect : decodeTableWord 32 0x11000205 = some (.pageselect 5 2) ∧
    decodeTableWord 32 0x19000205 = some (.pageselectR 5 2) ∧ decodeTableWord 32 0x19800205 = some (.pageselectE 5 2) := by
  decide
theorem test_decode_lock : decodeTableWord 32 0x12000005 = some (.lock 5 0) ∧
    decodeTableWord 32 0x1A000005 = some (.lockR 5 0) ∧ decodeTableWord 32 0x1A800005 = some (.lockE 5 0) := by decide
theorem test_decode_unlock : decodeTableWord 32 0x13000005 = some (.unlock 5 0) ∧
    decodeTableWord 32 0x1B000005 = some (.unlockR 5 0) ∧ decodeTableWord 32 0x1B800005 = some (.unlockE 5 0) := by decide
theorem test_decode_erase : decodeTableWord 32 0x14000205 = some (.erase 5 2) ∧
    decodeTableWord 32 0x1C000205 = some (.eraseR 5 2) ∧ decodeTableWord 32 0x1C800205 = some (.eraseE 5 2) := by decide
theorem test_decode_write : decodeTableWord 32 0x15000105 = some (.write 5 1) ∧
    decodeTableWord 32 0x1D000105 = some (.writeR 5 1) ∧ decodeTableWord 32 0x1D800105 = some (.writeE 5 1) := by decide
theorem test_decode_read : decodeTableWord 32 0x16000005 = some (.read 5 0) ∧
    decodeTableWord 32 0x1E000005 = some (.readR 5 0) ∧ decodeTableWord 32 0x1E800005 = some (.readE 5 0) := by decide
theorem test_decode_finish : decodeTableWord 32 0x17000005 = some (.finish 5 0) ∧
    decodeTableWord 32 0x1F000005 = some (.finishR 5 0) ∧ decodeTableWord 32 0x1F800005 = some (.finishE 5 0) := by decide

/-- R98, bit by bit: `1 0 kkk 0 arg(15) dev(8)` for a command, `1 1 kkk 0 …` and `1 1 kkk 1 …` for the replies. -/
theorem test_decode_bits :
    decodeTableWord 32 0b10101000000000000000100000101 = some (.write 5 1) ∧
    decodeTableWord 32 0b11101000000000000000100000101 = some (.writeR 5 1) ∧
    decodeTableWord 32 0b11101100000000000000100000101 = some (.writeE 5 1) := by decide

/-- R103, 95 §2.1: no row has bit 28 = 0 or the error bit without the reply bit; a value of 30 bits is no ID. -/
theorem test_decode_no_row : decode 0x0B000005 = .error .outsideProtocol ∧ decode 0x13800005 = .error .errorWithoutReply ∧
    decodeNat 0x30000005 = .error .tooWide := by decide

/-- 95 §2.1, the largest and the smallest ID of each role. -/
theorem test_encode_extremes : encode (.finish 0xFF 0x7FFF) = 0x177FFFFF ∧ encode (.finishR 0xFF 0x7FFF) = 0x1F7FFFFF ∧
    encode (.finishE 0xFF 0x7FFF) = 0x1FFFFFFF ∧ encode (.ping 0 0) = 0x10000000 ∧ encode (.pingE 0 0) = 0x18800000 ∧
    encode (.writeE 0x80 0x7FFF) = 0x1DFFFF80 := by decide

/-- 95 §2.1, DECODE of the largest standard-range ID and of all ones. -/
theorem test_decode_fields : decodeId 0x000007FF = ⟨false, false, .ping, false, 7, 0xFF⟩ ∧
    decodeId 0x1FFFFFFF = ⟨true, true, .finish, true, 0x7FFF, 0xFF⟩ := by decide

/-- W2. -/
theorem test_is_error : isError 0 = false ∧ isError 0x00800000 = true ∧ isError 0x1F7FFFFF = false ∧
    isError 0x13800005 = true ∧ isError 0x00000800 = false := by decide

/-- 95 §2.1, MATCH against 0x1B000005: the frames it discards, and the two it takes. -/
theorem test_match : [0x1B000006, 0x1A000005, 0x1B000105, 0x13000005, 0x0B000005, 0x005, 0x1B400005].all
      (fun id => !matchId id 0x1B000005) = true ∧
    matchId 0x1B000005 0x1B000005 = true ∧ matchId 0x1B800005 0x1B000005 = true := by decide

/-! ### The eight commands: CMD_ID, EXP_ID and STATUS after ACCEPT (S1, X3 and 95 §2.2) -/

/-- What the tests of the commands look at. -/
def commandView (o : Host.Outcome State Fault Refusal) : Option (Word × Word × Word × Word) :=
  after o fun t => (readRegister 0 t, readRegister 6 t, readRegister 7 t, t.q.timeout)

theorem test_ping : commandView (exec (.ping 5 0) (asked .ping 0)) = some (3, 0x10000005, 0x18000005, 100) := by decide
theorem test_pageselect : commandView (exec (.pageselect 5 2) (asked .pageselect 2)) =
    some (3, 0x11000205, 0x19000205, 100) := by decide
theorem test_lock : commandView (exec (.lock 5 0) (asked .lock 0)) = some (3, 0x12000005, 0x1A000005, 100) := by decide
theorem test_unlock : commandView (exec (.unlock 5 0) (asked .unlock 0)) = some (3, 0x13000005, 0x1B000005, 100) := by decide
theorem test_erase : commandView (exec (.erase 5 2) (asked .erase 2)) = some (3, 0x14000205, 0x1C000205, 100) := by decide
theorem test_write : commandView (exec (.write 5 1) (asked .write 1)) = some (3, 0x15000105, 0x1D000105, 100) := by decide
theorem test_read : commandView (exec (.read 5 0) (asked .read 0)) = some (3, 0x16000005, 0x1E000005, 100) := by decide
theorem test_finish : commandView (exec (.finish 5 0) (asked .finish 0)) = some (3, 0x17000005, 0x1F000005, 100) := by decide

/-- R162: the payload and the timeout are those of the channel. -/
theorem test_write_payload : after (exec (.write 5 1)
      { base with req := some ⟨.write, 5, 1, ⟨3, 2, 1, 0, 7, 6, 5, 4⟩, some 2⟩ }) (fun t => (t.q.data, t.q.timeout, t.req)) =
    some (⟨3, 2, 1, 0, 7, 6, 5, 4⟩, 2, none) := by decide

/-- X3: ACCEPT clears the response of the request before. -/
theorem test_ping_clears_response : after (exec (.ping 5 0) { asked .ping 0 with
      rsp := ⟨.matched, true, 0x1B000005, 3, ⟨1, 2, 3, 0, 0, 0, 0, 0⟩⟩ })
      (fun t => (t.rsp, readRegister 0 t)) = some (Response.cleared, 3) := by decide

/-- S22: while busy a presented request is held. -/
theorem test_lock_is_held : exec (.lock 5 0) { waiting .unlock 0 0 [] with req := some ⟨.lock, 5, 0, Bytes8.zero, none⟩ } =
    .next { waiting .unlock 0 0 [] with req := some ⟨.lock, 5, 0, Bytes8.zero, none⟩ } := rfl

/-! ### The sixteen reply rows: STATUS, RSP_ID and the FIFO after the POLL that takes them (95 §2.2, P1, P2) -/

/-- What the tests of the replies look at. -/
def replyView (o : Host.Outcome State Fault Refusal) : Option (Word × Word × List Frame) :=
  after o fun t => (readRegister 0 t, readRegister 1 t, t.rxq)

theorem test_pingR : replyView (exec (.pingR 5 0) (waiting .ping 0 1 [bare 0x18000005])) = some (0x28, 0x18000005, []) := by
  decide
theorem test_pageselectR : replyView (exec (.pageselectR 5 2) (waiting .pageselect 2 1 [bare 0x19000205])) =
    some (0x28, 0x19000205, []) := by decide
theorem test_lockR : replyView (exec (.lockR 5 0) (waiting .lock 0 1 [bare 0x1A000005])) = some (0x28, 0x1A000005, []) := by
  decide
theorem test_unlockR : replyView (exec (.unlockR 5 0) (waiting .unlock 0 1 [bare 0x1B000005])) =
    some (0x28, 0x1B000005, []) := by decide
theorem test_eraseR : replyView (exec (.eraseR 5 2) (waiting .erase 2 1 [bare 0x1C000205])) = some (0x28, 0x1C000205, []) := by
  decide
theorem test_writeR : replyView (exec (.writeR 5 1) (waiting .write 1 1 [bare 0x1D000105])) = some (0x28, 0x1D000105, []) := by
  decide
theorem test_readR : replyView (exec (.readR 5 0) (waiting .read 0 1 [bare 0x1E000005])) = some (0x28, 0x1E000005, []) := by
  decide
theorem test_finishR : replyView (exec (.finishR 5 0) (waiting .finish 0 1 [bare 0x1F000005])) =
    some (0x28, 0x1F000005, []) := by decide
theorem test_pingE : replyView (exec (.pingE 5 0) (waiting .ping 0 1 [bare 0x18800005])) = some (8, 0x18800005, []) := by
  decide
theorem test_pageselectE : replyView (exec (.pageselectE 5 2) (waiting .pageselect 2 1 [bare 0x19800205])) =
    some (8, 0x19800205, []) := by decide
theorem test_lockE : replyView (exec (.lockE 5 0) (waiting .lock 0 1 [bare 0x1A800005])) = some (8, 0x1A800005, []) := by decide
theorem test_unlockE : replyView (exec (.unlockE 5 0) (waiting .unlock 0 1 [bare 0x1B800005])) = some (8, 0x1B800005, []) := by
  decide
theorem test_eraseE : replyView (exec (.eraseE 5 2) (waiting .erase 2 1 [bare 0x1C800205])) = some (8, 0x1C800205, []) := by
  decide
theorem test_writeE : replyView (exec (.writeE 5 1) (waiting .write 1 1 [bare 0x1D800105])) = some (8, 0x1D800105, []) := by
  decide
theorem test_readE : replyView (exec (.readE 5 0) (waiting .read 0 1 [bare 0x1E800005])) = some (8, 0x1E800005, []) := by decide
theorem test_finishE : replyView (exec (.finishE 5 0) (waiting .finish 0 1 [bare 0x1F800005])) = some (8, 0x1F800005, []) := by
  decide

/-- 95 §2.2: a reply for page 3 does not answer PAGESELECT of page 2. -/
theorem test_pageselectR_other_page : after (exec (.pageselectR 5 3) (waiting .pageselect 2 0 [bare 0x19000305]))
    (fun t => (readRegister 0 t, t.hist)) = some (7, [.rxDiscard (bare 0x19000305)]) := by decide

/-- R45: a reply of three bytes. -/
theorem test_writeR_three_bytes : after (exec (.writeR 5 1) (waiting .write 1 1 [⟨0x1D000105, [0xAA, 0xBB, 0xCC]⟩]))
    (fun t => (readRegister 2 t, readRegister 3 t, readRegister 4 t)) = some (3, 0x00CCBBAA, 0) := by decide

/-- R161: no poll is enabled outside WAIT, so a reply stays queued. -/
theorem test_unlockR_before_the_send : after (exec (.unlockR 5 0)
      { waiting .unlock 0 0 [bare 0x1B000005] with st := .send, attempts := 0 }) (fun t => (t.st, t.rxq)) =
    some (.send, [bare 0x1B000005]) := by decide

/-! ### The block's steps -/

/-- S2. -/
theorem test_drain : after (takeMove (.block .drain) { waiting .unlock 0 0 [bare 0x1B000005] with st := .drain, attempts := 0 })
    (fun t => (readRegister 0 t, t.rxq, t.hist)) = some (5, [], [.flush [bare 0x1B000005]]) := by decide

/-- S12 (and S3 but for the result): a failed send is followed by a full wait. -/
theorem test_send_failed : after (takeMove (.block .send)
      { waiting .unlock 0 7 [] with st := .send, attempts := 0, txDraw := some .fail })
      (fun t => (readRegister 0 t, t.attempts, t.elapsed, t.hist)) =
    some (7, 1, 0, [.tx 0x13000005 8 Bytes8.zero .fail]) := by decide

/-- S21: `attempts` saturates. -/
theorem test_send_saturates : after (takeMove (.block .send)
      { waiting .unlock 0 0 [] with st := .send, attempts := 0xFFFFFFFF, txDraw := some .ok }) (fun t => t.attempts) =
    some 0xFFFFFFFF := by decide

/-- S4: the timeout test is strict. -/
theorem test_poll_at_the_timeout : after (takeMove (.block .poll) (waiting .unlock 0 100 [])) (fun t => (t.st, t.hist)) =
    some (.wait, []) := by decide

/-- S5. -/
theorem test_poll_after_the_timeout : after (takeMove (.block .poll) (waiting .unlock 0 101 [])) (fun t => (t.st, t.hist)) =
    some (.send, [.timeout 1]) := by decide

/-- S9: match before timeout. -/
theorem test_poll_match_first : after (takeMove (.block .poll) (waiting .unlock 0 150 [bare 0x1B000005]))
    (fun t => (readRegister 0 t, t.hist)) =
    some (0x28, [.rxMatch (bare 0x1B000005), .done ⟨.matched, true, 0x1B000005, 0, Bytes8.zero⟩]) := by decide

/-- S10: one frame per poll; the frame behind stays. -/
theorem test_poll_one_frame : after (takeMove (.block .poll) (waiting .unlock 0 101 [bare 0x1A000005, bare 0x1B000005]))
    (fun t => (t.st, t.rxq, t.hist)) =
    some (.send, [bare 0x1B000005], [.rxDiscard (bare 0x1A000005), .timeout 1]) := by decide

/-- S13. -/
theorem test_poll_cancelled : after (takeMove (.block .poll) { waiting .unlock 0 101 [] with cancel := true })
    (fun t => (readRegister 0 t, t.hist)) =
    some (0x10, [.timeout 1, .done ⟨.cancelled, false, 0, 0, Bytes8.zero⟩]) := by decide

/-- S14: cancel does not prevent a match. -/
theorem test_poll_match_despite_cancel : after (takeMove (.block .poll)
      { waiting .unlock 0 5 [bare 0x1B000005] with cancel := true }) (fun t => readRegister 0 t) = some 0x28 := by decide

/-- S15 and S17: the limit stops at the third attempt, not at the second. -/
theorem test_poll_limit :
    after (takeMove (.block .poll) { waiting .unlock 0 101 [] with cfg := ⟨3, 1, 1000000, none⟩, attempts := 3 })
      (fun t => (readRegister 0 t, t.hist)) =
      some (0x18, [.timeout 3, .done ⟨.exhausted, false, 0, 0, Bytes8.zero⟩]) ∧
    after (takeMove (.block .poll) { waiting .unlock 0 101 [] with cfg := ⟨3, 1, 1000000, none⟩, attempts := 2 })
      (fun t => (t.st, t.hist)) = some (.send, [.timeout 2]) := by decide

/-- S16: cancel before limit. -/
theorem test_poll_cancel_before_limit : after (takeMove (.block .poll)
      { waiting .unlock 0 101 [] with cfg := ⟨3, 1, 1000000, none⟩, attempts := 3, cancel := true })
      (fun t => t.rsp.status) = some .cancelled := by decide

/-- S8: with timeout 0 an attempt lasts one tick. -/
theorem test_poll_timeout_zero :
    after (takeMove (.block .poll) { waiting .unlock 0 0 [] with q := ⟨5, .unlock, 0, Bytes8.zero, 0⟩ }) (fun t => t.st) =
      some .wait ∧
    after (takeMove (.block .poll) { waiting .unlock 0 1 [] with q := ⟨5, .unlock, 0, Bytes8.zero, 0⟩ }) (fun t => t.hist) =
      some [.timeout 1] := by decide

/-- S18 and S19. -/
theorem test_tick : after (takeMove .tick base) (fun t => (t.elapsed, t.hist)) = some (0, [.tick]) ∧
    refusalOf (takeMove .tick { waiting .unlock 0 1 [] with sincePoll := 1 }) = some .notEnabled := by decide

/-- R63: a full FIFO loses the arriving frame. -/
theorem test_arrive_full : after (takeMove (.arrive ⟨0x1B000005, 0, []⟩)
      { base with cfg := ⟨0, 1, 1000000, some 1⟩, rxq := [bare 5] }) (fun t => (t.rxq, t.hist)) =
    some ([bare 5], [.drop (bare 0x1B000005)]) := by decide

/-- X1. -/
theorem test_reset : after (takeMove .reset (waiting .erase 2 3 [bare 0x1C000205]))
    (fun t => (readRegister 0 t, readRegister 6 t, readRegister 7 t, t.rxq, t.hist)) =
    some (0, 0x10000000, 0x18000000, [bare 0x1C000205], [.reset]) := by decide

/-- X5 and X6; and R237 c. -/
theorem test_refusals : refusalOf (takeMove (.present ⟨8, 5, 0, Bytes8.zero, none⟩) base) = some .outOfRange ∧
    refusalOf (takeMove (.arrive ⟨0x20000000, 0, []⟩) base) = some .illFormedFrame ∧
    refusalOf (takeMove (.secondUser .flush) base) = some .sharedTransport := by decide

/-- P5: the client sets CANCEL; only bit 0 is kept (R49). -/
theorem test_cancel : after (takeMove (.writeReg 9 0xFFFFFFFF) base) (fun t => readRegister 9 t) = some 1 := by decide

/-- A placed word is the first instruction after reset (log 8): UNLOCK, and its reply. -/
theorem test_placed_word : after (step (State.reset.withFetchWord 32 0x13000005)) (fun t => (t.st, readRegister 6 t)) =
      some (.drain, 0x13000005) ∧
    after (step (State.reset.withFetchWord 32 0x1B000005)) (fun t => t.hist) =
      some [.rxDiscard (bare 0x1B000005)] := by decide

/-! ### The reference client, the assembler, the ports -/

/-- W3, W4. -/
theorem test_transform : transform (chunkAt [0, 1, 2, 3, 4, 5, 6, 7] 0) = ⟨3, 2, 1, 0, 7, 6, 5, 4⟩ ∧
    transform (chunkAt [0xAA, 0xBB, 0xCC, 0xDD, 0xEE] 0) = ⟨0xDD, 0xCC, 0xBB, 0xAA, 0xFF, 0xFF, 0xFF, 0xEE⟩ := by decide

/-- W7: the failing absolute address, for a wrong echo, an error reply and a right echo. -/
theorem test_write_mismatch :
    (afterResponse .write ⟨.matched, true, 0x1D000105, 8, ⟨0, 0, 0, 0, 0, 0, 0, 1⟩⟩
      (programming (List.replicate 16 0) 8 2)).session = .aborted (.writeMismatch 0x1008) ∧
    (afterResponse .write ⟨.matched, false, 0x1D800005, 8, Bytes8.zero⟩ (programming (List.replicate 16 0) 0 2)).session =
      .aborted (.writeMismatch 0x1000) ∧
    (afterResponse .write ⟨.matched, true, 0x1D000005, 8, Bytes8.zero⟩ (programming (List.replicate 16 0) 0 2)).position = 8 := by
  decide

/-- H7: at position 0x800 with page offset 2 the client selects page 3. -/
theorem test_client_page (image : List Byte) (h : image.length = 2049) :
    programKind (programming image 0x800 2) = .pageselect ∧ clientArg .pageselect (programming image 0x800 2) = 3 := by
  refine ⟨?_, by simp [clientArg, targetPage, programming, Config.pageSize]⟩
  have hp : (programming image 0x800 2).position < (programming image 0x800 2).image.length := by
    show 0x800 < image.length; omega
  rw [programKind, if_pos hp, if_pos (by simp [targetPage, programming, Config.pageSize])]
  rfl

/-- P6 row 3: the client's request at position 0. -/
theorem test_client_step : after (takeMove .client { base with client := some (programming (List.replicate 16 0) 0 1) })
    (fun t => t.req) = some (some ⟨.pageselect, 5, 2, Bytes8.zero, none⟩) := by decide

/-- R214: page 0x8000 is refused. -/
theorem test_client_page_refused : refusalOf (takeMove .client { base with
      client := some { programming (List.replicate 16 0) 0 1 with pageOffset := 0x8000 } }) = some .outOfRange := by decide

/-- R237 a, R48: a request in range is put on REQ. -/
theorem test_present : after (takeMove (.present ⟨7, 255, 0x7FFF, Bytes8.zero, some 2⟩) base) (fun t => t.req) =
    some (some ⟨.finish, 0xFF, 0x7FFF, Bytes8.zero, some 2⟩) := by decide

/-- P7: an error reply to UNLOCK. -/
theorem test_client_unlock_rejected : after (takeMove .client { base with
      rsp := ⟨.matched, false, 0x1B800005, 0, Bytes8.zero⟩
      client := some { programming [] 0 1 with session := .pinged, waiting := true } })
      (fun t => t.client.map Client.session) = some (some (.aborted .unlockRejected)) := by decide

/-- R100, R111 and 95 §2.2: WRITEPOS 5, 0x808 is WRITE dev=5 arg=1; WRITEAT 5, 0x7FC and PAGESEL 5, 0x8000 are refused. -/
theorem test_pseudo : expandPseudo (.writepos 5 0x808 Bytes8.zero) = .ok ⟨.write, 5, some 1, some Bytes8.zero, none⟩ ∧
    expandPseudo (.writeat 5 0x7FC Bytes8.zero) = .error .badOffset ∧
    expandPseudo (.pagesel 5 0x8000) = .error .outOfRange := ⟨rfl, rfl, rfl⟩

/-- R112: a TxSend with no TXRESULT line draws ok, and the repetition is unrolled. -/
theorem test_script : assembleScript (.line (.step .send) (.rep (.line (.tick 1) (.line (.step .poll) .done)) 2 .done)) =
    .ok [.txResult .ok, .block .send, .tick, .block .poll, .tick, .block .poll] := rfl

/-- R110 and R112: the text of a request with every field, of a repetition, and of an arrival. -/
theorem test_script_text : readScript ("WRITE dev=5 arg=0x1 data=03 02 01 00 07 06 05 ff timeout=2 ; c\n[ACCEPT]\n" ++
      "( TICK 1\n  [POLL] ) x2\nARRIVE id=0x1D000105 data=03 AA\nCANCEL 1") =
    some (.line (.request ⟨.write, 5, some 1, some ⟨3, 2, 1, 0, 7, 6, 5, 0xFF⟩, some 2⟩) (.line (.step .accept)
      (.rep (.line (.tick 1) (.line (.step .poll) .done)) 2
        (.line (.arrive 0x1D000105 [3, 0xAA]) (.line (.cancel true) .done))))) := by decide +kernel

/-- R112 and 95 S6 (log 19): block steps in brackets share a line with a tick, with a request and with each other. -/
theorem test_script_text_shared_line : readScript "[POLL]\n(TICK 1 [POLL]) x101" =
      some (.line (.step .poll) (.rep (.line (.tick 1) (.line (.step .poll) .done)) 101 .done)) ∧
    readScript "PING dev=5 [ACCEPT] [DRAIN] ; c" =
      some (.line (.request ⟨.ping, 5, none, none, none⟩) (.line (.step .accept) (.line (.step .drain) .done))) ∧
    readScript "TICK [POLL] 1" = none := by decide +kernel

/-- R52 and R50: the 64-bit port, and the strobe of the transport. -/
theorem test_ports : packPort ⟨3, 2, 1, 0, 7, 6, 5, 4⟩ = 0x0405060700010203 ∧ (portsOut base).reqReady = true ∧
    (portsOut base).txDlc = 8 ∧ (portsOut { base with st := .drain }).rxFlush = true := by decide

/-- Input ports that carry nothing. -/
def quiet : PortsIn :=
  { reqValid := false, reqKind := 0, reqDev := 0, reqArg := 0, reqData := 0, reqTimeout := 0, reqTimeoutGiven := false
    cancel := false, rst := false, txDone := false, txFail := false, rxValid := false, rxId := 0, rxDlc := 0, rxData := 0
    tick := false }

/-- R50, R239 a: `rst` discards the poll of a waiting block, `cancel` drives CTRL bit 0, `tick` is one TICK. -/
theorem test_ports_control : ({ quiet with rst := true, cancel := true, tick := true } : PortsIn).moves (waiting .unlock 0 1 []) =
    .ok [.reset, .writeReg 9 1, .tick] := rfl

/-- R50: ACCEPT happens when `req_valid` and `req_ready` are 1; a failed TxSend ends the step SEND. -/
theorem test_ports_block :
    ({ quiet with reqValid := true, reqKind := 3, reqDev := 5 } : PortsIn).moves base =
      .ok [.writeReg 9 0, .present ⟨3, 5, 0, Bytes8.zero, none⟩, .block .accept] ∧
    ({ quiet with txDone := true, txFail := true } : PortsIn).moves { waiting .unlock 0 1 [] with st := .send } =
      .ok [.writeReg 9 0, .txResult .fail, .block .send] := ⟨rfl, rfl⟩

/-- R61, R237 b: `rx_dlc` = 8 is a frame of 8 bytes, `rx_dlc` = 9 is refused. -/
theorem test_ports_rx_dlc :
    ({ quiet with rxValid := true, rxId := 0x1B000005, rxDlc := 8 } : PortsIn).rxAnswer =
      .ok (some ⟨0x1B000005, [0, 0, 0, 0, 0, 0, 0, 0]⟩) ∧
    ({ quiet with rxValid := true, rxId := 0x1B000005, rxDlc := 9 } : PortsIn).rxAnswer = .error .illFormedFrame := ⟨rfl, rfl⟩

/-- R7: the defaults of PAGE_OFFSET and LAST_PAGE, and a session that gives its own. -/
theorem test_session_parameters :
    after (takeMove (.session 5 [] none none) base) (fun t => t.client.map fun c => (c.pageOffset, c.lastPage, c.currentPage)) =
      some (some (2, 63, 1)) ∧
    after (takeMove (.session 5 [] (some 0) (some 31)) base)
      (fun t => t.client.map fun c => (c.pageOffset, c.lastPage, c.currentPage)) = some (some (0, 31, -1)) := by decide

/-- R51: the stand-alone codec. -/
theorem test_codec_unit : (codecUnit ⟨5, 3, 0, 0x1B800005, 0x1B800005, 0x1B000005⟩) =
    ⟨0x13000005, 0x1B000005, true, true, 3, true, 0, 5, true⟩ := by decide

/-! ### Witnesses: states and operands that meet the hypotheses of each statement, at the ends of their ranges -/

theorem test_witness_EncodeOfDecode : decode 0x10000000 = .ok (.ping 0 0) ∧ decode 0x1FFFFFFF = .ok (.finishE 0xFF 0x7FFF) := by
  decide

theorem test_witness_IdsThatAreNoRow :
    (0x0FFFFFFF : Id).getLsbD 28 = false ∧
    ((0x10800000 : Id).getLsbD 28 = true ∧ (0x10800000 : Id).getLsbD 27 = false ∧ (0x10800000 : Id).getLsbD 23 = true) ∧
    ((0x18800000 : Id).getLsbD 28 = true ∧ (0x18800000 : Id).getLsbD 27 = true) ∧
    ((0x10000000 : Id).getLsbD 28 = true ∧ (0x10000000 : Id).getLsbD 23 = false) := by decide

theorem test_witness_BitTestsReadOneBit :
    (0x00800000 : Id).getLsbD 23 = (0x1FFFFFFF : Id).getLsbD 23 ∧ (0x0FFFFFFF : Id).toNat < 0x10000000 := by decide

theorem test_witness_VerdictReadsTheIdOnly :
    matchId (bare 0x1B800005).id 0x1B000005 = true ∧ matchId (bare 0x13000005).id 0x1B000005 = false ∧
    (bare 0x1B000005).id = (⟨0x1B000005, [1]⟩ : Frame).id ∧ bare 0x1B000005 ≠ ⟨0x1B000005, [1]⟩ := by decide

theorem test_witness_ExactlyTwoIdsMatch : encodeId 5 .write 1 = encodeId 5 .write 1 ∧
    matchId (replyIdFor (encodeId 5 .write 1) ||| maskIf true 0x00800000) (replyIdFor (encodeId 5 .write 1)) = true ∧
    (programming [] 8 2).position % 0x800 = (programming [] 0x808 3).position % 0x800 := by decide

theorem test_witness_ValidMeansEqualId :
    (waiting .unlock 0 1 [bare 0x1B800005]).st = .wait ∧ (waiting .unlock 0 1 [bare 0x1B800005]).rsp.status = .none ∧
    (waiting .unlock 0 1 [bare 0x1B800005]).rxq = bare 0x1B800005 :: [] ∧
    after (takeMove (.block .poll) (waiting .unlock 0 1 [bare 0x1B800005])) (fun t => (t.rsp.status, t.rsp.ok)) =
      some (.matched, false) ∧
    after (takeMove (.block .poll) (waiting .unlock 0 1 [bare 0x1B000005])) (fun t => (t.rsp.status, t.rsp.ok)) =
      some (.matched, true) := by decide

theorem test_witness_WriteArgumentIsTheChunk : 0x7F8 < 0x800 ∧ 0x7F8 % 8 = 0 ∧ 0 < 0x800 ∧ 0 % 8 = 0 := by decide

theorem test_witness_BoundaryRefusals :
    7 < (⟨8, 0, 0, Bytes8.zero, none⟩ : RawRequest).kind ∧ 255 < (⟨0, 256, 0, Bytes8.zero, none⟩ : RawRequest).dev ∧
    0x7FFF < (⟨0, 0, 0x8000, Bytes8.zero, none⟩ : RawRequest).arg ∧
    (∃ t, (⟨0, 0, 0, Bytes8.zero, some 0x100000000⟩ : RawRequest).timeout = some t ∧ 0xFFFFFFFF < t) ∧
    ((⟨7, 255, 0x7FFF, Bytes8.zero, some 0xFFFFFFFF⟩ : RawRequest).kind ≤ 7 ∧
      ∀ t, (⟨7, 255, 0x7FFF, Bytes8.zero, some 0xFFFFFFFF⟩ : RawRequest).timeout = some t → t ≤ 0xFFFFFFFF) ∧
    (base.req = none ∧ sessionRunning base = false) ∧
    2 ^ 29 ≤ (⟨0x20000000, 0, []⟩ : RawFrame).id ∧ 8 < (⟨0, 9, []⟩ : RawFrame).dlc ∧
    (⟨0, 1, []⟩ : RawFrame).data.length ≠ (⟨0, 1, []⟩ : RawFrame).dlc := by
  refine ⟨by decide, by decide, by decide, ⟨_, rfl, by decide⟩, ⟨by decide, ?_⟩, by decide, by decide, by decide, by decide⟩
  rintro t ⟨⟩
  decide

/-- Each condition of R111 at its last good and first bad value. -/
theorem test_witness_PseudoInstructions : 255 ≤ 255 ∧ 0x7FFF ≤ 0x7FFF ∧ 0x7FFF < 0x8000 ∧
    (0x7F8 ≤ 0x7F8 ∧ 0x7F8 % 8 = 0) ∧ (0x7F8 < 0x800 ∧ 0x7FC % 8 ≠ 0) ∧ 0x808 % 8 = 0 ∧ 0x804 % 8 ≠ 0 := by decide

theorem test_witness_CommandIsAcceptedInIdle : ∀ k : Kind, (asked k 0x7FFF).st = .idle ∧
    (asked k 0x7FFF).req = some ⟨k, 5, 0x7FFF, Bytes8.zero, none⟩ ∧
    (waiting k 0 0 []).st ≠ .idle ∧ base.req = none := by intro k; cases k <;> decide

theorem test_witness_CommandWithoutRequestTakesDefaults : base.st = .idle ∧ base.req = none := by decide

theorem test_witness_CommandIsHeldWhileBusy :
    ({ waiting .unlock 0 0 [] with req := some ⟨.lock, 5, 0, Bytes8.zero, none⟩ } : State).st ≠ .idle ∧
    ({ waiting .unlock 0 0 [] with req := some ⟨.lock, 5, 0, Bytes8.zero, none⟩ } : State).req =
      some ⟨.lock, 5, 0, Bytes8.zero, none⟩ ∧
    ∃ t, step { waiting .unlock 0 0 [] with req := some ⟨.lock, 5, 0, Bytes8.zero, none⟩, moves := [.tick] } = .next t :=
  ⟨by decide, by decide, ⟨_, rfl⟩⟩

theorem test_witness_CommandFrame : (∃ t, exec (.ping 5 0) (asked .ping 0) = .next t) ∧
    (waiting .unlock 0 0 []).st ≠ .idle ∧ ∃ t, exec (.ping 5 0) (waiting .unlock 0 0 []) = .next t :=
  ⟨⟨_, rfl⟩, by decide, ⟨_, rfl⟩⟩

theorem test_witness_ValidReplyCompletes : ∀ k : Kind,
    (waiting k 1 1 [bare (encode (Instr.validReply k 5 1))]).st = .wait ∧
    (waiting k 1 1 [bare (encode (Instr.validReply k 5 1))]).rxq = bare (encode (Instr.validReply k 5 1)) :: [] := by
  intro k; cases k <;> decide

theorem test_witness_ErrorReplyCompletes : ∀ k : Kind,
    (waiting k 1 1 [bare (encode (Instr.errorReply k 5 1))]).st = .wait ∧
    (waiting k 1 1 [bare (encode (Instr.errorReply k 5 1))]).rxq = bare (encode (Instr.errorReply k 5 1)) :: [] := by
  intro k; cases k <;> decide

theorem test_witness_OtherReplyIsDiscarded : Instr.role (.unlockR 6 0) ≠ .command ∧
    (waiting .unlock 0 100 [bare 0x1B000006]).st = .wait ∧ (bare 0x1B000006).id = encode (.unlockR 6 0) ∧
    (Instr.kind (.unlockR 6 0), Instr.dev (.unlockR 6 0), Instr.arg (.unlockR 6 0)) ≠
      ((waiting .unlock 0 100 []).q.kind, (waiting .unlock 0 100 []).q.dev, (waiting .unlock 0 100 []).q.arg) ∧
    (waiting .unlock 0 100 []).elapsed ≤ (waiting .unlock 0 100 []).q.timeout.toNat := by decide

theorem test_witness_ReplyRunsAsPoll : Instr.role (.unlockE 5 0) ≠ .command ∧
    (waiting .unlock 0 1 [bare 0x1B800005]).st = .wait ∧ (bare 0x1B800005).id = encode (.unlockE 5 0) ∧ base.st ≠ .wait := by
  decide

theorem test_witness_ReplyFrame : Instr.role (.unlockR 5 0) ≠ .command ∧
    (∃ t, exec (.unlockR 5 0) (waiting .unlock 0 1 [bare 0x1B000005]) = .next t ∧ t.st = .idle) ∧
    ∃ t, exec (.unlockR 6 0) (waiting .unlock 0 1 [bare 0x1B000006]) = .next t ∧ t.st ≠ .idle :=
  ⟨by decide, ⟨_, rfl, by decide⟩, ⟨_, rfl, by decide⟩⟩

theorem test_witness_DrainFlushesTheQueue : ({ base with st := .drain } : State).st = .drain ∧ base.st ≠ .drain := by decide

theorem test_witness_SendTransmitsTheFrame : ({ base with st := .send, txDraw := some .fail } : State).st = .send ∧
    ({ base with st := .send, txDraw := some .fail } : State).txDraw = some .fail ∧ base.st ≠ .send := by decide

theorem test_witness_PollTakesTheMatchFirst : (waiting .unlock 0 150 [bare 0x1B000005]).st = .wait ∧
    matchId (bare 0x1B000005).id (waiting .unlock 0 150 [bare 0x1B000005]).expId = true := by decide

/-- No frame and a discarded frame; then each branch: at the timeout, past it with `cancel`, at the limit, and neither. -/
theorem test_witness_PollWithoutMatch :
    ((waiting .unlock 0 100 []).st = .wait ∧ (waiting .unlock 0 100 []).rxq = []) ∧
    matchId (bare 0x1A000005).id (waiting .unlock 0 101 [bare 0x1A000005]).expId = false ∧
    (waiting .unlock 0 100 []).elapsed ≤ (waiting .unlock 0 100 []).q.timeout.toNat ∧
    ¬ (waiting .unlock 0 101 []).elapsed ≤ (waiting .unlock 0 101 []).q.timeout.toNat ∧
    ({ waiting .unlock 0 101 [] with cancel := true } : State).cancel = true ∧
    (({ waiting .unlock 0 101 [] with cfg := ⟨1, 1, 1, none⟩ } : State).cfg.retryLimit ≠ 0 ∧
      ({ waiting .unlock 0 101 [] with cfg := ⟨1, 1, 1, none⟩ } : State).cfg.retryLimit.toNat ≤
        ({ waiting .unlock 0 101 [] with cfg := ⟨1, 1, 1, none⟩ } : State).attempts.toNat) ∧
    (waiting .unlock 0 101 []).cfg.retryLimit = 0 := by decide

theorem test_witness_PollDiscardsWhatIsNoReply : (waiting .unlock 0 100 [bare 0x13000005]).st = .wait ∧
    replyInstr (bare 0x13000005).id = none ∧ replyInstr (bare 0x005).id = none ∧
    (waiting .unlock 0 100 []).elapsed ≤ (waiting .unlock 0 100 []).q.timeout.toNat := by decide

theorem test_witness_TickCountsInWaitOnly : base.st ≠ .wait ∧
    ((waiting .unlock 0 0 []).st = .wait ∧ (waiting .unlock 0 0 []).sincePoll < (waiting .unlock 0 0 []).cfg.pollInterval) ∧
    ({ waiting .unlock 0 1 [] with sincePoll := 1 } : State).cfg.pollInterval ≤
      ({ waiting .unlock 0 1 [] with sincePoll := 1 } : State).sincePoll := by decide

theorem test_witness_ArrivalIsQueuedOrDropped :
    ((⟨0x1FFFFFFF, 8, [0, 0, 0, 0, 0, 0, 0, 0]⟩ : RawFrame).id < 2 ^ 29 ∧
      (⟨0x1FFFFFFF, 8, [0, 0, 0, 0, 0, 0, 0, 0]⟩ : RawFrame).dlc ≤ 8 ∧
      (⟨0x1FFFFFFF, 8, [0, 0, 0, 0, 0, 0, 0, 0]⟩ : RawFrame).data.length =
        (⟨0x1FFFFFFF, 8, [0, 0, 0, 0, 0, 0, 0, 0]⟩ : RawFrame).dlc) ∧
    base.cfg.rxqDepth = none ∧
    (∃ n, ({ base with cfg := ⟨0, 1, 1, some 1⟩ } : State).cfg.rxqDepth = some n ∧ base.rxq.length < n) ∧
    ∃ n, ({ base with cfg := ⟨0, 1, 1, some 1⟩, rxq := [bare 5] } : State).cfg.rxqDepth = some n ∧ n ≤ [bare 5].length :=
  ⟨by decide, by decide, ⟨1, rfl, by decide⟩, ⟨1, rfl, by decide⟩⟩

theorem test_witness_DataPacking : 3 < 4 ∧ 7 < 8 := by decide

theorem test_witness_RegistersReadTheState : 10 ≤ 10 := by decide

theorem test_witness_OnlyCtrlIsWritable : 0 ≠ 9 ∧ 10 ≠ 9 := by decide

theorem test_witness_StepRunsThePresentedCommand :
    ({ asked .unlock 0 with moves := [.block .accept] } : State).moves = .block .accept :: [] ∧
    ({ asked .unlock 0 with moves := [.block .accept] } : State).st = .idle ∧
    ({ asked .unlock 0 with moves := [.block .accept] } : State).req = some ⟨.unlock, 5, 0, Bytes8.zero, none⟩ := by decide

theorem test_witness_StepRunsThePolledReply :
    ({ waiting .unlock 0 1 [bare 0x1B000005] with moves := [.block .poll] } : State).moves = .block .poll :: [] ∧
    (waiting .unlock 0 1 [bare 0x1B000005]).st = .wait ∧ decode (bare 0x1B000005).id = .ok (.unlockR 5 0) ∧
    Instr.role (.unlockR 5 0) ≠ .command := by decide

theorem test_witness_PlacedWordIsRun : 0x1FFFFFFF < 2 ^ 29 ∧ decodeTableWord 32 0x1FFFFFFF = some (.finishE 0xFF 0x7FFF) ∧
    decodeTableWord 32 0x10000000 = some (.ping 0 0) := by decide

theorem test_witness_NeverStopsByItself : State.reset.moves = [] := by decide

/-- A state that meets all four invariants and whose next step, a transmission, answers a next state. -/
def sending : State :=
  { base with st := .send, moves := [.block .send], txDraw := some .ok
              hist := [.accept Latched.reset, .flush []] }

theorem test_witness_StepKeepsInv : Inv sending ∧ ∃ t, step sending = .next t ∧ t.st = .wait := by
  refine ⟨⟨fun _ => rfl, (fun h => by cases h), (fun h => by cases h), rfl, Nat.zero_le _, ?_, (fun f h => by cases h),
    (fun n h => by cases h), ⟨by decide, by decide⟩, (fun h => by cases h), (fun h => by cases h)⟩, ⟨_, rfl, by decide⟩⟩
  intro i _
  match i with
  | 0 | 1 | 2 | 3 | 4 | 5 | 6 | 7 => rfl
  | n + 8 => rfl

theorem test_witness_StepKeepsLimit : LimitInv { sending with cfg := ⟨1, 1, 1, none⟩ } ∧
    ∃ t, step { sending with cfg := ⟨1, 1, 1, none⟩ } = .next t ∧ t.attempts = 1 :=
  ⟨fun _ => ⟨by decide, fun _ => by decide⟩, ⟨_, rfl, by decide⟩⟩

theorem test_witness_StepKeepsEventOrder : OrderInv sending ∧ ∃ t, step sending = .next t ∧ t.st = .wait :=
  ⟨.inl ⟨by decide, rfl⟩, ⟨_, rfl, by decide⟩⟩

theorem test_witness_StepKeepsSameFrame : SameFrameInv sending ∧ ∃ t, step sending = .next t ∧ (transmitted t.hist).length = 1 :=
  ⟨⟨(fun x h => by cases h), by decide⟩, ⟨_, rfl, by decide⟩⟩

theorem test_witness_OnlyAcceptAndResetLatch :
    (∃ t, step { asked .unlock 0 with moves := [.block .accept] } = .next t ∧ t.q.kind = .unlock) ∧
    ∃ t, step { waiting .unlock 0 0 [] with moves := [.reset] } = .next t ∧ t.q = Latched.reset :=
  ⟨⟨_, rfl, by decide⟩, ⟨_, rfl, by decide⟩⟩

theorem test_witness_ResponseHoldsUntilAccept : base.st = .idle ∧
    (∃ t, step { asked .unlock 0 with moves := [.block .accept] } = .next t ∧ t.rsp = Response.cleared) ∧
    ∃ t, step { base with moves := [.tick] } = .next t ∧ t.rsp = base.rsp :=
  ⟨by decide, ⟨_, rfl, by decide⟩, ⟨_, rfl, by decide⟩⟩

/-- A busy block becomes idle in each of the four ways. -/
theorem test_witness_BusyEndsOnlyAsListed :
    (∃ t, step { waiting .unlock 0 1 [bare 0x1B000005] with moves := [.block .poll] } = .next t ∧ t.st = .idle) ∧
    (∃ t, step { waiting .unlock 0 101 [] with moves := [.block .poll], cancel := true } = .next t ∧ t.st = .idle) ∧
    (∃ t, step { waiting .unlock 0 101 [] with moves := [.block .poll], cfg := ⟨1, 1, 1, none⟩ } = .next t ∧ t.st = .idle) ∧
    ∃ t, step { waiting .unlock 0 1 [] with moves := [.reset] } = .next t ∧ t.st = .idle :=
  ⟨⟨_, rfl, by decide⟩, ⟨_, rfl, by decide⟩, ⟨_, rfl, by decide⟩, ⟨_, rfl, by decide⟩⟩

theorem test_witness_HistoryGrowsParametersStay : ∃ t, step sending = .next t ∧ t.hist.length = 3 := ⟨_, rfl, by decide⟩

/-- `q_timeout` 100 and `POLL_INTERVAL` 1: the timed-out POLL has `elapsed` 101, both ends of the bound. -/
theorem test_witness_TimeoutLatencyBound : Inv { waiting .unlock 0 101 [] with sincePoll := 1 } ∧
    ∃ t, takeMove (.block .poll) { waiting .unlock 0 101 [] with sincePoll := 1 } = .next t ∧
      t.hist = [] ++ [.timeout 1] ∧ (.timeout 1 : Event) ∈ [Event.timeout 1] := by
  refine ⟨⟨fun _ => rfl, (fun _ => by decide), (fun h => by cases h), rfl, Nat.zero_le _, ?_, (fun f h => by cases h),
    (fun n h => by cases h), ⟨by decide, by decide⟩, (fun _ => by decide), (fun _ => by decide)⟩, ⟨_, rfl, by decide⟩⟩
  intro i _
  match i with
  | 0 | 1 | 2 | 3 | 4 | 5 | 6 | 7 => rfl
  | n + 8 => rfl

/-- A silent wait with `q_timeout` 0, the smallest. -/
def silent : State :=
  { waiting .unlock 0 0 [] with q := ⟨5, .unlock, 0, Bytes8.zero, 0⟩, moves := [.tick, .block .poll] }

theorem test_witness_SilentWaitTimesOut : silent.st = .wait ∧ silent.elapsed = 0 ∧ silent.sincePoll = 0 ∧ silent.rxq = [] ∧
    silent.cancel = false ∧ silent.cfg.retryLimit = 0 ∧ 1 ≤ silent.cfg.pollInterval ∧
    silent.moves = (List.replicate (silent.q.timeout.toNat + 1) [Move.tick, Move.block .poll]).flatten := by decide

theorem test_witness_RequestRunsToItsReply :
    (asked .unlock 0).st = .idle ∧ (asked .unlock 0).req = some ⟨.unlock, 5, 0, Bytes8.zero, none⟩ ∧
    (asked .unlock 0).cfg.rxqDepth ≠ some 0 ∧ [0, 0, 0, 0, 0, 0, 0, 0].length ≤ 8 ∧
    ({ asked .unlock 0 with moves := [.block .accept, .block .drain, .block .send,
        .arrive ⟨0x1B800005, 8, [0, 0, 0, 0, 0, 0, 0, 0]⟩, .block .poll] } : State).moves =
      [.block .accept, .block .drain, .block .send,
        .arrive ⟨(maskIf true 0x00800000 ||| 0x08000000 ||| encodeId 5 .unlock 0).toNat,
          [0, 0, 0, 0, 0, 0, 0, 0].length, [0, 0, 0, 0, 0, 0, 0, 0]⟩, .block .poll] := by decide

theorem test_witness_SendResultIsNeverRead : sending.st = .send := by decide

theorem test_witness_CancelIsReadAtATimeoutOnly :
    ((waiting .unlock 0 100 []).st = .wait ∧ (waiting .unlock 0 100 []).elapsed ≤ (waiting .unlock 0 100 []).q.timeout.toNat) ∧
    matchId (bare 0x1B000005).id (waiting .unlock 0 150 [bare 0x1B000005]).expId = true ∧
    (∃ t, takeMove (.block .poll) (waiting .unlock 0 100 []) = .next t) ∧
    refusalOf (takeMove (.block .drain) (waiting .unlock 0 100 [])) = some .notEnabled :=
  ⟨by decide, by decide, ⟨_, rfl⟩, by decide⟩

theorem test_witness_ExactlyOneBlockStepIsEnabled : (base.st = .idle ∧ base.req = none) ∧
    (waiting .unlock 0 0 []).st ≠ .idle ∧ (asked .unlock 0).req ≠ none := by decide

theorem test_witness_TransformReversesTheHalves : 1 < 2 ∧ 3 < 4 := by decide

/-- A right echo, and each way a Write reply is wrong; CANCELLED and EXHAUSTED. -/
theorem test_witness_ClientReadsTheResponse :
    (⟨.matched, true, 0x1D000005, 8, Bytes8.zero⟩ : Response).status = .matched ∧
    (⟨.matched, true, 0x1D000005, 8, Bytes8.zero⟩ : Response).data =
      transform (chunkAt (programming (List.replicate 16 0) 0 2).image 0) ∧
    (⟨.matched, false, 0x1D800005, 8, Bytes8.zero⟩ : Response).ok = false ∧
    (⟨.matched, true, 0x1D000005, 4, Bytes8.zero⟩ : Response).dlc ≠ 8 ∧
    (⟨.matched, true, 0x1D000005, 8, Bytes8.fill 1⟩ : Response).data ≠
      transform (chunkAt (programming (List.replicate 16 0) 0 2).image 0) ∧
    (⟨.cancelled, false, 0, 0, Bytes8.zero⟩ : Response).status = .cancelled ∧
    (⟨.exhausted, false, 0, 0, Bytes8.zero⟩ : Response).status = .exhausted ∧
    (sessionKind { programming (List.replicate 16 0) 0 2 with waiting := true } = some .write ∧ base.st = .idle ∧
      base.req = none) := by decide

theorem test_witness_ClientProgramsThePages :
    (programming (List.replicate 16 0) 16 2).image.length ≤ (programming (List.replicate 16 0) 16 2).position ∧
    ((programming (List.replicate 16 0) 0 1).position < (programming (List.replicate 16 0) 0 1).image.length ∧
      ((0 / 0x800 + 2 : Nat) : Int) ≠ (programming (List.replicate 16 0) 0 1).currentPage) ∧
    ((programming (List.replicate 16 0) 8 2).position < (programming (List.replicate 16 0) 8 2).image.length ∧
      ((8 / 0x800 + 2 : Nat) : Int) = (programming (List.replicate 16 0) 8 2).currentPage) ∧
    7 < 8 ∧ Kind.lock ≠ .write ∧
    ({ base with client := some (programming (List.replicate 16 0) 8 2) } : State).client =
      some (programming (List.replicate 16 0) 8 2) ∧
    sessionKind (programming (List.replicate 16 0) 8 2) = some .write ∧
    (programming (List.replicate 16 0) 8 2).waiting = false ∧ base.st = .idle ∧ base.req = none ∧
    clientArg .write (programming (List.replicate 16 0) 8 2) ≤ 0x7FFF ∧
    clientArg .pageselect { programming (List.replicate 16 0) 0 0 with pageOffset := 0x7FFF } ≤ 0x7FFF := by decide

end Sys2Proof.Tests
end

/-! SUPPORT. What a step with a listed move runs (00_scope.md R15, R16): the scope statements. -/
namespace Sys2Proof.Machine

/-- A step whose schedule is not empty takes the first listed move, with the strobe cleared (R238). -/
theorem step_of_moves {s : State} {m : Move} {ms : List Move} (h : s.moves = m :: ms) :
    step s = takeMove m { s with moves := ms, done := false } := by
  rw [step, stepAgents, h]
  rfl

/-- The block's ACCEPT runs the row of the request presented to an idle block (R162). -/
theorem takeMove_accept {s : State} {r : Request} (hidle : s.st = .idle) (hreq : s.req = some r) :
    takeMove (.block .accept) s = exec (requestInstr r) s := by
  simp [takeMove, blockMove, hidle, hreq]

/-- An ID that decodes to a row other than a command is received as that row (R149). -/
theorem replyInstr_of_decode {id : Id} {i : Instr} (hdec : decode id = .ok i) (hrole : i.role ≠ .command) :
    replyInstr id = some i := by
  simp only [replyInstr, hdec]
  cases hr : i.role with
  | command => exact absurd hr hrole
  | validReply => rfl
  | errorReply => rfl

/-- The block's POLL runs the reply row at the head of a waiting block's FIFO (R165). -/
theorem takeMove_poll_reply {s : State} {f : Frame} {rest : List Frame} {i : Instr} (hwait : s.st = .wait)
    (hq : s.rxq = f :: rest) (hrow : replyInstr f.id = some i) :
    takeMove (.block .poll) s = exec i s := by
  simp [takeMove, blockMove, pollHead, hwait, hq, hrow]

/-- Settles O39: the listed ACCEPT is the move taken, and it runs the presented request's row. -/
theorem stepRunsThePresentedCommand : Obligations.StepRunsThePresentedCommand := by
  intro s ms r hmoves hidle hreq
  rw [step_of_moves hmoves]
  exact takeMove_accept hidle hreq

/-- Settles O40: the listed POLL is the move taken, and the head of the FIFO is received as its reply row. -/
theorem stepRunsThePolledReply : Obligations.StepRunsThePolledReply := by
  intro s ms f rest i hmoves hwait hq hdec hrole
  rw [step_of_moves hmoves]
  exact takeMove_poll_reply hwait hq (replyInstr_of_decode hdec hrole)

end Sys2Proof.Machine

/-! SUPPORT. The block's state (10_state.md): every move keeps the invariants, one lemma per move. -/
namespace Sys2Proof.Machine

/-- The cleared array holds 0x00 everywhere (R34). -/
theorem get_zero_bytes (i : Nat) : Bytes8.zero.get i = 0 := by
  match i with
  | 0 | 1 | 2 | 3 | 4 | 5 | 6 | 7 => rfl
  | n + 8 => rfl

/-- The response array holds 0x00 from the length of the frame on (R34). -/
theorem get_padData_of_length_le {data : List Byte} {i : Nat} (h : data.length ≤ i) : (padData data).get i = 0 := by
  have hpad : ∀ {j}, j = i → data.getD j 0 = 0 := by rintro j rfl; exact List.getD_eq_default _ _ h
  match i with
  | 0 | 1 | 2 | 3 | 4 | 5 | 6 | 7 => exact hpad rfl
  | n + 8 => rfl

/-- SEND as one record update: a draw touches only what is no register of the block. -/
theorem send_eq (s : State) :
    send s = { s with attempts := countAttempt s.attempts, elapsed := 0, sincePoll := 0, st := .wait,
                      hist := (send s).hist, txDraw := (send s).txDraw, freeCtr := (send s).freeCtr } := by
  rw [send, txSend, drawTxResult_state]
  rfl

/-- Before an answer, and after CANCELLED or EXHAUSTED, the response registers but the status are 0 (R55 e). -/
theorem responseAgrees_of_cleared {s : State} {x : RspStatus} (hx : x ≠ .matched)
    (h : s.rsp = { Response.cleared with status := x }) : responseAgrees s := by
  rw [responseAgrees, h]
  cases x with
  | matched => exact absurd rfl hx
  | none | cancelled | exhausted => rfl

section
variable {s : State}

/-- A busy block's response registers are cleared (R55 a, d). -/
theorem Inv.rsp_eq_cleared (hs : Inv s) (hbusy : s.st ≠ .idle) : s.rsp = Response.cleared := by
  have h := hs.response
  rw [responseAgrees, hs.unanswered hbusy] at h
  exact h

/-- ACCEPT clears the counters and the response (R162). -/
theorem Inv.acceptRequest (hs : Inv s) (r : Request) : Inv (acceptRequest r s) where
  unanswered _ := rfl
  attempted := nofun
  unattempted _ := rfl
  response := rfl
  shortReply := Nat.zero_le _
  padded i _ := get_zero_bytes i
  frames := hs.frames
  room := hs.room
  params := hs.params
  polled := nofun
  timely := nofun

/-- DRAIN empties the FIFO and counts no attempt (R163). -/
theorem Inv.drain (hs : Inv s) (h : s.st = .drain) : Inv (drain s) :=
  { hs with
    unanswered := fun _ => hs.unanswered (by simp [h])
    attempted := nofun
    unattempted := nofun
    frames := nofun
    room := fun _ _ => Nat.zero_le _
    polled := nofun
    timely := nofun }

/-- SEND counts an attempt and starts its wait at 0 (R164). -/
theorem Inv.send (hs : Inv s) (h : s.st = .send) : Inv (send s) := by
  rw [send_eq]
  exact { hs with
    unanswered := fun _ => hs.unanswered (by simp [h])
    attempted := fun _ => by simp only [countAttempt_toNat]; omega
    unattempted := nofun
    polled := fun _ => Nat.zero_le _
    timely := fun _ => Nat.zero_le _ }

/-- An arrival is queued only where the FIFO has room (R63, R64). -/
theorem Inv.arrive (hs : Inv s) {f : Frame} (hf : f.wellFormed) : Inv (arrive f s) := by
  obtain ⟨hroom, he⟩ | ⟨-, he⟩ := arrive_cases f s <;> rw [he]
  · refine { hs with frames := ?_, room := ?_ }
    · intro g hg
      obtain hg | hg := List.mem_append.mp hg
      · exact hs.frames g hg
      · rwa [List.mem_singleton.mp hg]
    · intro n hn
      replace hn : s.cfg.rxqDepth = some n := hn
      simpa [rxqHasRoom, hn] using hroom
  · exact { hs with }

/-- TICK is held at `POLL_INTERVAL`, and counts `elapsed` and `since_poll` together (R170, R172). -/
theorem Inv.tick (hs : Inv s) (h : tickEnabled s = true) : Inv (tick s) := by
  rw [tick_eq]
  refine { hs with polled := ?_, timely := ?_ } <;> intro hw <;> replace hw : s.st = .wait := hw
  · simpa [tickEnabled, hw] using h
  · simp only [hw, if_true]
    exact Nat.succ_le_succ (hs.timely hw)

/-- RESET clears the block's registers and leaves the FIFO (R260, R262). -/
theorem Inv.reset (hs : Inv s) : Inv (reset s) where
  unanswered h := absurd rfl h
  attempted := nofun
  unattempted := nofun
  response := rfl
  shortReply := Nat.zero_le _
  padded i _ := get_zero_bytes i
  frames := hs.frames
  room := hs.room
  params := hs.params
  polled := nofun
  timely := nofun

/-- A busy block may go to SEND (R167). -/
theorem Inv.retransmit (hs : Inv s) (hbusy : s.st ≠ .idle) : Inv { s with st := .send } :=
  { hs with
    unanswered := fun _ => hs.unanswered hbusy
    attempted := nofun
    unattempted := nofun
    polled := nofun
    timely := nofun }

/-- An RxPoll keeps the invariant where the wait is over or goes on before the timeout (R174). -/
theorem Inv.rxPoll (hs : Inv s) (h : s.st = .wait → s.elapsed ≤ s.q.timeout.toNat) :
    Inv { s with sincePoll := 0, rxq := s.rxq.tail } :=
  { hs with
    frames := fun f hf => hs.frames f (List.mem_of_mem_tail hf)
    room := fun n hn => s.rxq.tail_sublist.length_le.trans (hs.room n hn)
    polled := fun _ => Nat.zero_le _
    timely := h }

/-- A request ends CANCELLED or EXHAUSTED with the other response registers at 0 (R55 e, R167). -/
theorem Inv.complete (hs : Inv s) (hbusy : s.st ≠ .idle) {x : RspStatus} (hx : x ≠ .matched) : Inv (complete x s) :=
  { hs with
    unanswered := fun h => absurd rfl h
    attempted := nofun
    unattempted := nofun
    response := responseAgrees_of_cleared hx (by rw [complete_rsp, hs.rsp_eq_cleared hbusy])
    polled := nofun
    timely := nofun }

/-- A request ends MATCHED with the frame's ID, length and bytes (R55 d, R34, R165). -/
theorem Inv.takeMatch (hs : Inv s) {f : Frame} (hf : f.wellFormed) (hm : matchId f.id s.expId = true) :
    Inv (takeMatch f (!isError f.id) s) :=
  have hlen : (BitVec.ofNat 4 f.data.length).toNat = f.data.length := by
    rw [BitVec.toNat_ofNat]; exact Nat.mod_eq_of_lt (by have : f.data.length ≤ 8 := hf; omega)
  { hs with
    unanswered := fun h => absurd rfl h
    attempted := nofun
    unattempted := nofun
    response := ⟨beq_iff_eq.mp hm, rfl⟩
    shortReply := hlen.trans_le hf
    padded := fun _ hi => get_padData_of_length_le (hlen.symm.trans_le hi)
    polled := nofun
    timely := nofun }

/-- A POLL keeps the invariant: a wait that is over leaves WAIT, as a retransmission does, before what ends it is written. -/
theorem Inv.poll (hs : Inv s) (hwait : s.st = .wait) : Inv (poll s) := by
  have hleft (hist : List Event) : Inv { s with st := .send, sincePoll := 0, rxq := s.rxq.tail, hist := hist } :=
    { (hs.retransmit (by simp [hwait])).rxPoll nofun with }
  obtain ⟨es, rest, rfl, ⟨f, hq, hm, -, he⟩ | ⟨-, ⟨ht, he⟩ | ⟨-, -, he⟩ | ⟨-, -, -, he⟩ | ⟨-, -, -, he⟩⟩⟩ :=
    poll_cases s <;> rw [he]
  · exact (hleft s.hist).takeMatch (hs.frames f (by rw [hq]; exact List.mem_cons_self)) hm
  · exact { hs.rxPoll (fun _ => ht) with }
  · exact (hleft _).complete nofun nofun
  · exact (hleft _).complete nofun nofun
  · exact hleft _

/-- Every move keeps the invariant. -/
theorem Inv.of_moved {t : State} (hs : Inv s) (h : Moved s t) : Inv t := by
  cases h with
  | accept r => exact hs.acceptRequest r
  | drain h => exact hs.drain h
  | send h => exact hs.send h
  | poll h => exact hs.poll h
  | arrive f hf => exact hs.arrive hf
  | tick h => exact hs.tick h
  | reset => exact hs.reset
  | host => exact { hs with }

end

/-- Settles O44: each move keeps the invariant, and the strobe and the schedule are not read by it. -/
theorem stepKeepsInv : Obligations.StepKeepsInv :=
  keeps_of_moved (fun _ _ _ _ hs => { hs with }) (fun _ _ => Inv.of_moved)

end Sys2Proof.Machine

/-! SUPPORT. What the moves leave unchanged (10_state.md R36, R38), and the register view bit by bit (R41 to R52). -/
namespace Sys2Proof.Machine

/-- A POLL writes neither the latched request nor a parameter, and only adds to the history (R21, R36, R38). -/
theorem poll_keeps (s : State) : (poll s).q = s.q ∧ (poll s).cfg = s.cfg ∧ s.hist <+: (poll s).hist := by
  obtain ⟨es, rest, -, ⟨f, -, -, -, he⟩ | ⟨-, ⟨-, he⟩ | ⟨-, -, he⟩ | ⟨-, -, -, he⟩ | ⟨-, -, -, he⟩⟩⟩ :=
    poll_cases s <;> rw [he] <;> simp

/-- An ARRIVE writes neither, too (R64). -/
theorem arrive_keeps (f : Frame) (s : State) :
    (arrive f s).q = s.q ∧ (arrive f s).cfg = s.cfg ∧ s.hist <+: (arrive f s).hist := by
  obtain ⟨-, he⟩ | ⟨-, he⟩ := arrive_cases f s <;> rw [he] <;> simp

/-- A TICK writes neither, too (R170). -/
theorem tick_keeps (s : State) : (tick s).q = s.q ∧ (tick s).cfg = s.cfg ∧ s.hist <+: (tick s).hist := by
  rw [tick_eq]; simp

/-- The latched request is written by ACCEPT and RESET only (R21). -/
theorem Moved.latched {s t : State} (h : Moved s t) :
    t.q = s.q ∨ t.hist = s.hist ++ [.accept t.q] ∧ s.st = .idle ∨
      t.hist = s.hist ++ [.reset] ∧ t.q = Latched.reset := by
  cases h with
  | accept r hidle => exact .inr (.inl ⟨rfl, hidle⟩)
  | reset => exact .inr (.inr ⟨rfl, rfl⟩)
  | drain => exact .inl rfl
  | send => exact .inl (send_q s)
  | poll => exact .inl (poll_keeps s).1
  | arrive f => exact .inl (arrive_keeps f s).1
  | tick => exact .inl (tick_keeps s).1
  | host => exact .inl rfl

/-- No move takes an event out of the history or writes a parameter (R36, R38). -/
theorem Moved.history_cfg {s t : State} (h : Moved s t) : s.hist <+: t.hist ∧ t.cfg = s.cfg := by
  cases h with
  | accept | drain | reset => exact ⟨List.prefix_append _ _, rfl⟩
  | send => exact ⟨by simp, send_cfg s⟩
  | poll =>
    obtain ⟨-, hcfg, hhist⟩ := poll_keeps s
    exact ⟨hhist, hcfg⟩
  | arrive f =>
    obtain ⟨-, hcfg, hhist⟩ := arrive_keeps f s
    exact ⟨hhist, hcfg⟩
  | tick =>
    obtain ⟨-, hcfg, hhist⟩ := tick_keeps s
    exact ⟨hhist, hcfg⟩
  | host => exact ⟨List.prefix_rfl, rfl⟩

/-- Settles O48: a step is a move, and clearing the strobe and advancing the schedule write neither the latched request
nor the history. -/
theorem onlyAcceptAndResetLatch : Obligations.OnlyAcceptAndResetLatch := by
  intro s t h
  obtain ⟨moves, freeCtr, hm⟩ := moved_of_step h
  exact hm.latched

/-- Settles O51: a step is a move, and every move extends the history. -/
theorem historyGrowsParametersStay : Obligations.HistoryGrowsParametersStay := by
  intro s t h
  obtain ⟨moves, freeCtr, hm⟩ := moved_of_step h
  obtain ⟨⟨es, hes⟩, hcfg⟩ := hm.history_cfg
  exact ⟨⟨es, hes.symm⟩, hcfg⟩

/-- A write to any register but CTRL is ignored (R41). -/
theorem takeMove_writeReg_of_ne {i : Nat} (h : i ≠ 9) (v : Word) (s : State) :
    takeMove (.writeReg i v) s = .next s := by
  rw [takeMove, writeRegister_eq, if_neg h]

/-- Bit 0 of a bit word is the bit, the others are 0. -/
theorem getLsbD_bitWord (b : Bool) (i : Nat) : (bitWord b).getLsbD i = (b && decide (i = 0)) := by
  cases b <;> simp [bitWord, BitVec.getLsbD_one]

/-- The fields of STATUS are disjoint (R42): their OR is their concatenation. -/
theorem statusWord_eq_append (s : State) :
    statusWord s = 0#26 ++ BitVec.ofBool s.rsp.ok ++ s.rsp.status.code ++ s.st.code ++ BitVec.ofBool s.busy := by
  apply BitVec.eq_of_getLsbD_eq
  intro i hi
  simp only [statusWord, BitVec.getLsbD_or, BitVec.getLsbD_shiftLeft, BitVec.getLsbD_setWidth, BitVec.getLsbD_append,
    BitVec.getLsbD_ofBool, getLsbD_bitWord]
  interval_cases i <;> simp

/-- Settles O35: each field is its part of the concatenation. -/
theorem statusFields : Obligations.StatusFields := by
  refine ⟨fun s => ?_, rfl, rfl, rfl⟩
  have hread : readRegister 0 s = _ := statusWord_eq_append s
  refine ⟨?busy, ?st, ?status, ?ok, ?reserved, takeMove_writeReg_of_ne (by decide) (s := s)⟩
  all_goals
    rw [hread]
    simp (disch := decide) only [BitVec.extractLsb'_append_eq_of_le, BitVec.extractLsb'_append_eq_of_add_le,
      BitVec.getLsbD_append, Nat.reduceSub, Nat.reduceLT, if_true, if_false]
  case busy | ok => simp [State.busy]
  case st | status | reserved => exact BitVec.extractLsb'_eq_self

/-- Byte i of a word packed from four bytes (R45). -/
theorem extractLsb'_packWord (d0 d1 d2 d3 : Byte) {i : Nat} (h : i < 4) :
    (packWord d0 d1 d2 d3).extractLsb' (8 * i) 8 = [d0, d1, d2, d3].getD i 0 := by
  unfold packWord
  interval_cases i <;>
    simp (disch := decide) only [BitVec.extractLsb'_append_eq_of_le, BitVec.extractLsb'_append_eq_of_add_le] <;>
    exact BitVec.extractLsb'_eq_self

/-- Byte i of the 64-bit port (R52). -/
theorem extractLsb'_packPort (d : Bytes8) {i : Nat} (h : i < 8) : (packPort d).extractLsb' (8 * i) 8 = d.get i := by
  unfold packPort
  interval_cases i <;>
    simp (disch := decide) only [BitVec.extractLsb'_append_eq_of_le, BitVec.extractLsb'_append_eq_of_add_le] <;>
    exact BitVec.extractLsb'_eq_self

/-- Unpacking reads the eight bytes one by one (R52). -/
theorem unpackPort_packPort (d : Bytes8) : unpackPort (packPort d) = d := by
  simp (disch := decide) only [unpackPort, Bytes8.ofIndex, extractLsb'_packPort]
  rfl

/-- Settles O37: the two data registers and the port are packed byte by byte. -/
theorem dataPacking : Obligations.DataPacking := by
  refine ⟨fun s i hi => ⟨?low, ?high⟩, fun d _ => extractLsb'_packPort d, unpackPort_packPort,
    fun s v => ⟨takeMove_writeReg_of_ne (by decide) v s, takeMove_writeReg_of_ne (by decide) v s⟩, rfl, rfl⟩
  case low | high => exact (extractLsb'_packWord _ _ _ _ hi).trans (by interval_cases i <;> rfl)

/-- An index that is not in the table reads 0 (R41). -/
theorem readRegister_of_ge {i : Nat} (h : 10 ≤ i) (s : State) : readRegister i s = 0 := by
  obtain ⟨n, rfl⟩ := Nat.exists_eq_add_of_le' h
  rfl

/-- Settles O36: a narrower register is widened with zeros, and ELAPSED is cut off at 32 bits before it is read. -/
theorem registersReadTheState : Obligations.RegistersReadTheState := by
  refine ⟨fun s => ⟨?id, ?dlc, rfl, ?elapsed, ?cmdId, ?expId, fun i v hi => ?write, fun _ => rfl,
    fun i hi => readRegister_of_ge hi s⟩, rfl, rfl, rfl, rfl⟩
  case id | dlc | cmdId | expId => exact BitVec.toNat_setWidth_of_le (by decide)
  case elapsed => exact (BitVec.toNat_ofNat _ _).trans (Nat.mod_eq_of_lt (by omega))
  case write => exact takeMove_writeReg_of_ne (by omega) v s

/-- Settles O38: CTRL is the one register a write reaches. -/
theorem onlyCtrlIsWritable : Obligations.OnlyCtrlIsWritable := by
  refine ⟨fun s v => ⟨rfl, ?cancel, ?reserved⟩, fun s i v hi => takeMove_writeReg_of_ne hi v s, fun _ _ => rfl, rfl⟩
  case cancel => exact (getLsbD_bitWord s.cancel 0).trans (by simp)
  case reserved =>
    change (bitWord s.cancel).extractLsb' 1 31 = 0
    cases s.cancel <;> rfl

end Sys2Proof.Machine

/-! SUPPORT. The transport's FIFO (20_memory.md R60 to R68) and the order of events (R77, R78): what an arrival does,
and how far each move takes the order. -/
namespace Sys2Proof.Machine

/-- The FIFO has room exactly where its depth is unbounded or not reached (R63). -/
theorem rxqHasRoom_iff (s : State) :
    rxqHasRoom s = true ↔ s.cfg.rxqDepth = none ∨ ∃ n, s.cfg.rxqDepth = some n ∧ s.rxq.length < n := by
  unfold rxqHasRoom
  cases s.cfg.rxqDepth <;> simp

/-- A frame given in naturals is admitted where its ID has 29 bits and its length is that of its bytes, at most 8
(R61). -/
theorem frameOfRaw_of_wellFormed {raw : RawFrame} (hid : raw.id < 2 ^ 29) (hdlc : raw.dlc ≤ 8)
    (hlen : raw.data.length = raw.dlc) : frameOfRaw raw = some ⟨BitVec.ofNat 29 raw.id, raw.data⟩ :=
  if_pos (by rw [RawFrame.wellFormed, decide_eq_true hid, decide_eq_true hdlc, decide_eq_true hlen]; rfl)

/-- Settles O33: the frame is admitted, and whether the FIFO has room decides between its two ends. -/
theorem arrivalIsQueuedOrDropped : Obligations.ArrivalIsQueuedOrDropped := by
  intro s raw hid hdlc hlen
  have hmove : takeMove (.arrive raw) s = .next (arrive ⟨BitVec.ofNat 29 raw.id, raw.data⟩ s) := by
    simp only [takeMove, frameOfRaw_of_wellFormed hid hdlc hlen]
  rw [hmove]
  constructor
  · intro hroom
    rw [arrive, if_pos ((rxqHasRoom_iff s).mpr hroom)]
    rfl
  · rintro ⟨n, hn, hfull⟩
    have hnot : ¬ rxqHasRoom s = true := by
      rw [rxqHasRoom_iff, hn]
      simpa using hfull
    rw [arrive, if_neg hnot]
    rfl

/-- The state after reset meets the invariant of the block: it is idle, its response is cleared and its FIFO is empty
(R53). -/
theorem Inv.stateReset : Inv State.reset where
  unanswered h := absurd rfl h
  attempted := nofun
  unattempted := nofun
  response := rfl
  shortReply := Nat.zero_le _
  padded i _ := get_zero_bytes i
  frames := nofun
  room := nofun
  params := ⟨Nat.le_add_left 1 _, by decide⟩
  polled := nofun
  timely := nofun

/-- Settles O43: no retry limit is set after reset, and the history is empty. -/
theorem invariantsHoldAtReset : Obligations.InvariantsHoldAtReset :=
  ⟨Inv.stateReset, fun hlimit => absurd rfl hlimit, rfl, nofun, rfl⟩

/-- An event that the order admits takes it on. -/
theorem progressOf_append_of_next {h : List Event} {p p' : Progress} {e : Event} (hp : progressOf h = some p)
    (he : p.next e = some p') : progressOf (h ++ [e]) = some p' := by
  rw [progressOf_append, hp, Option.bind_some, he]

/-- An event that falls anywhere leaves the order where it was (R77). -/
theorem progressOf_append_of_anywhere {e : Event} (he : ∀ p : Progress, p.next e = some p) (h : List Event) :
    progressOf (h ++ [e]) = progressOf h := by
  rw [progressOf_append, funext he, Option.bind_fun_some]

section
variable {s : State}

theorem orderInv_iff_of_idle (h : s.st = .idle) : OrderInv s ↔ progressOf s.hist = some .closed := by
  rw [OrderInv, h]

theorem orderInv_iff_of_drain (h : s.st = .drain) :
    OrderInv s ↔ progressOf s.hist = some .accepted ∧ s.attempts = 0 := by
  rw [OrderInv, h]

theorem orderInv_iff_of_send (h : s.st = .send) :
    OrderInv s ↔ progressOf s.hist = some .flushed ∧ s.attempts = 0 ∨
      progressOf s.hist = some .timedOut ∧ 1 ≤ s.attempts.toNat := by
  rw [OrderInv, h]

theorem orderInv_iff_of_wait (h : s.st = .wait) :
    OrderInv s ↔ progressOf s.hist = some .sent ∧ 1 ≤ s.attempts.toNat := by
  rw [OrderInv, h]

/-- A history that agrees with `st` has come to some point of the order. -/
theorem OrderInv.exists_progress (hs : OrderInv s) : ∃ p, progressOf s.hist = some p := by
  cases hst : s.st with
  | idle => exact ⟨_, (orderInv_iff_of_idle hst).mp hs⟩
  | drain => exact ⟨_, ((orderInv_iff_of_drain hst).mp hs).1⟩
  | send =>
    obtain ⟨hp, -⟩ | ⟨hp, -⟩ := (orderInv_iff_of_send hst).mp hs <;> exact ⟨_, hp⟩
  | wait => exact ⟨_, ((orderInv_iff_of_wait hst).mp hs).1⟩

/-- The order is read off `st`, `attempts` and how far the history has come, nothing else. -/
theorem OrderInv.of_eq (hs : OrderInv s) {t : State} (hst : t.st = s.st) (hattempts : t.attempts = s.attempts)
    (hprogress : progressOf t.hist = progressOf s.hist) : OrderInv t := by
  rwa [OrderInv, hst, hattempts, hprogress]

/-- ACCEPT opens a request where none is open (R162). -/
theorem OrderInv.acceptRequest (hs : OrderInv s) (hidle : s.st = .idle) (r : Request) : OrderInv (acceptRequest r s) :=
  (orderInv_iff_of_drain rfl).mpr ⟨progressOf_append_of_next ((orderInv_iff_of_idle hidle).mp hs) rfl, rfl⟩

/-- DRAIN flushes once, before the first transmission (R163). -/
theorem OrderInv.drain (hs : OrderInv s) (hdrain : s.st = .drain) : OrderInv (drain s) := by
  obtain ⟨hp, hnone⟩ := (orderInv_iff_of_drain hdrain).mp hs
  exact (orderInv_iff_of_send rfl).mpr (.inl ⟨progressOf_append_of_next hp rfl, hnone⟩)

/-- SEND transmits after the flush or after a timeout, and counts the attempt (R164). -/
theorem OrderInv.send (hs : OrderInv s) (hsend : s.st = .send) : OrderInv (send s) := by
  refine (orderInv_iff_of_wait rfl).mpr ⟨?sent, by simp only [send_attempts, countAttempt_toNat]; omega⟩
  rw [send_hist]
  obtain ⟨hp, -⟩ | ⟨hp, -⟩ := (orderInv_iff_of_send hsend).mp hs <;> exact progressOf_append_of_next hp rfl

/-- A POLL adds a match and its completion, or at most one discard and then, once timed out, the TIMEOUT and what
follows it (R165 to R168). -/
theorem OrderInv.poll (hs : OrderInv s) (hwait : s.st = .wait) : OrderInv (poll s) := by
  obtain ⟨hsent, hattempts⟩ := (orderInv_iff_of_wait hwait).mp hs
  obtain ⟨es, rest, -, ⟨f, -, -, -, he⟩ | ⟨hes, hends⟩⟩ := poll_cases s
  · rw [he]
    exact (orderInv_iff_of_idle rfl).mpr (progressOf_append_of_next (progressOf_append_of_next hsent rfl) rfl)
  · have hdiscard : progressOf (s.hist ++ es) = some .sent := by
      obtain rfl | ⟨f, rfl⟩ := hes
      · rwa [List.append_nil]
      · exact progressOf_append_of_next hsent rfl
    have htimeout : progressOf (s.hist ++ es ++ [.timeout s.attempts]) = some .timedOut :=
      progressOf_append_of_next hdiscard rfl
    obtain ⟨-, he⟩ | ⟨-, -, he⟩ | ⟨-, -, -, he⟩ | ⟨-, -, -, he⟩ := hends <;> rw [he]
    · exact (orderInv_iff_of_wait (by exact hwait)).mpr ⟨hdiscard, hattempts⟩
    · exact (orderInv_iff_of_idle rfl).mpr (progressOf_append_of_next htimeout rfl)
    · exact (orderInv_iff_of_idle rfl).mpr (progressOf_append_of_next htimeout rfl)
    · exact (orderInv_iff_of_send rfl).mpr (.inr ⟨htimeout, hattempts⟩)

/-- ARRIVE and DROP fall anywhere (R64, R77). -/
theorem OrderInv.arrive (hs : OrderInv s) (f : Frame) : OrderInv (arrive f s) := by
  obtain ⟨-, he⟩ | ⟨-, he⟩ := arrive_cases f s <;> rw [he] <;>
    exact hs.of_eq rfl rfl (progressOf_append_of_anywhere (fun _ => rfl) _)

/-- TICK falls anywhere (R170, R77). -/
theorem OrderInv.tick (hs : OrderInv s) : OrderInv (tick s) := by
  rw [tick_eq]
  exact hs.of_eq rfl rfl (progressOf_append_of_anywhere (fun _ => rfl) _)

/-- RESET cuts the sequence off wherever it has come to (R77, R260). -/
theorem OrderInv.reset (hs : OrderInv s) : OrderInv (reset s) := by
  obtain ⟨p, hp⟩ := hs.exists_progress
  exact (orderInv_iff_of_idle rfl).mpr (progressOf_append_of_next hp rfl)

/-- Every move keeps the order. -/
theorem OrderInv.of_moved {t : State} (hs : OrderInv s) (h : Moved s t) : OrderInv t := by
  cases h with
  | accept r hidle => exact hs.acceptRequest hidle r
  | drain h => exact hs.drain h
  | send h => exact hs.send h
  | poll h => exact hs.poll h
  | arrive f => exact hs.arrive f
  | tick => exact hs.tick
  | reset => exact hs.reset
  | host => exact hs.of_eq rfl rfl rfl

end

/-- Settles O46: each move keeps the order, and the strobe and the schedule are not read by it. -/
theorem stepKeepsEventOrder : Obligations.StepKeepsEventOrder :=
  keeps_of_moved (fun _ _ _ _ hs => hs.of_eq rfl rfl rfl) (fun _ _ => OrderInv.of_moved)

end Sys2Proof.Machine

/-! SUPPORT. The decoder and the encoder (30_encoding.md R90 to R113): a row is its six fields, and both are read off
them. -/
namespace Sys2Proof

/-- The six fields of a row's ID, with the fixed bits of its role (R98). -/
def Instr.fields (i : Instr) : IdFields :=
  ⟨true, decide (i.role ≠ .command), i.kind, decide (i.role = .errorReply), i.arg, i.dev⟩

/-- A row is the one of its role, its kind and its operands (R113). -/
theorem Instr.ofRole_self (i : Instr) : Instr.ofRole i.role i.kind i.dev i.arg = i := by
  cases i <;> rfl

theorem Instr.command_self {i : Instr} (hrole : i.role = .command) : Instr.command i.kind i.dev i.arg = i := by
  have h := i.ofRole_self
  rwa [hrole] at h

theorem Instr.role_ofRole (role : Role) (kind : Kind) (dev : Dev) (arg : Arg) :
    (Instr.ofRole role kind dev arg).role = role := by
  cases role <;> cases kind <;> rfl

theorem Instr.fields_ofRole (role : Role) (kind : Kind) (dev : Dev) (arg : Arg) :
    (Instr.ofRole role kind dev arg).fields =
      ⟨true, decide (role ≠ .command), kind, decide (role = .errorReply), arg, dev⟩ := by
  cases role <;> cases kind <;> rfl

/-- The encoder assembles the fields of the row (R98). -/
theorem encode_eq_assembleId (i : Instr) : encode i = assembleId i.fields := by
  unfold encode Instr.fields
  cases i.role <;> rfl

/-- A command row's ID is ENCODE of its operands (R121). -/
theorem encode_command (kind : Kind) (dev : Dev) (arg : Arg) :
    encode (Instr.command kind dev arg) = encodeId dev kind arg := by
  rw [encodeId_eq_assemble, encode_eq_assembleId]
  exact congrArg assembleId (Instr.fields_ofRole .command kind dev arg)

/-- Assembly loses nothing: an assembled ID has the fields it was assembled from (R126). -/
theorem decodeId_assembleId (f : IdFields) : decodeId (assembleId f) = f := by
  rw [assembleId_eq_append, decodeId]
  simp (disch := decide) only [BitVec.extractLsb'_append_eq_of_le, BitVec.extractLsb'_append_eq_of_add_le,
    BitVec.getLsbD_append, Nat.reduceSub, Nat.reduceLT, if_true, if_false]
  simp

/-- The three answers of the decoder (R98, R103): it rejects an ID without BASE and one with ERROR but without REPLY, and
any other ID is the row of some role. -/
theorem decode_cases (id : Id) :
    id.getLsbD 28 = false ∧ decode id = .error .outsideProtocol ∨
    id.getLsbD 28 = true ∧ id.getLsbD 27 = false ∧ id.getLsbD 23 = true ∧ decode id = .error .errorWithoutReply ∨
    ∃ role : Role, id.getLsbD 28 = true ∧ id.getLsbD 27 = decide (role ≠ .command) ∧
      id.getLsbD 23 = decide (role = .errorReply) ∧
      decode id = .ok (Instr.ofRole role (decodeId id).kind (decodeId id).dev (decodeId id).arg) := by
  unfold decode decodeId
  dsimp only
  cases id.getLsbD 28 with
  | false => exact .inl ⟨rfl, rfl⟩
  | true =>
    cases id.getLsbD 27 <;> cases id.getLsbD 23
    · exact .inr (.inr ⟨.command, rfl, rfl, rfl, rfl⟩)
    · exact .inr (.inl ⟨rfl, rfl, rfl, rfl⟩)
    · exact .inr (.inr ⟨.validReply, rfl, rfl, rfl, rfl⟩)
    · exact .inr (.inr ⟨.errorReply, rfl, rfl, rfl, rfl⟩)

/-- An ID decodes to a row exactly where its fields are the row's. -/
theorem decode_eq_ok_iff {id : Id} {i : Instr} : decode id = .ok i ↔ decodeId id = i.fields := by
  constructor
  · intro h
    obtain ⟨-, he⟩ | ⟨-, -, -, he⟩ | ⟨role, h28, h27, h23, he⟩ := decode_cases id <;> rw [he] at h
    · cases h
    · cases h
    · cases h
      rw [Instr.fields_ofRole, ← h28, ← h27, ← h23]
      rfl
  · intro h
    unfold decode
    rw [h]
    cases i <;> rfl

/-- Settles O1: the encoder assembles the row's fields, and DECODE takes them apart again. -/
theorem decodeOfEncode : Obligations.DecodeOfEncode := by
  intro i
  rw [decode_eq_ok_iff, encode_eq_assembleId, decodeId_assembleId]

/-- Settles O2: the row has the fields of the ID, and these assemble to it. -/
theorem encodeOfDecode : Obligations.EncodeOfDecode := by
  intro id i h
  rw [encode_eq_assembleId, ← decode_eq_ok_iff.mp h, assembleId_decodeId]

/-- Settles O3: each of the decoder's three answers stands for its own values of bits 28, 27 and 23. -/
theorem idsThatAreNoRow : Obligations.IdsThatAreNoRow := by
  intro id
  obtain ⟨h28, he⟩ | ⟨h28, h27, h23, he⟩ | ⟨role, h28, h27, h23, he⟩ := decode_cases id
  · rw [h28, he]; simp
  · rw [h28, h27, h23, he]; simp
  · rw [h28, h27, h23, he]; cases role <;> simp

end Sys2Proof

namespace Sys2Proof.Machine

/-- An in-page offset in chunks, put at bit 8, is the offset put at bit 5 (R100). -/
theorem chunkIndex_shiftLeft {off : Nat} (h : off % 8 = 0) : chunkIndex off <<< 8 = off <<< 5 := by
  rw [chunkIndex, Nat.shiftLeft_eq, Nat.shiftLeft_eq]
  omega

/-- The argument field of an ID holds an argument in range as it is (R96). -/
theorem setWidth_ofNat_shiftLeft {n : Nat} (h : n < 2 ^ 15) :
    (BitVec.ofNat 15 n).setWidth 29 <<< 8 = BitVec.ofNat 29 (n <<< 8) := by
  rw [BitVec.setWidth_ofNat_of_le_of_lt (by decide) h]
  apply BitVec.eq_of_toNat_eq
  simp [BitVec.toNat_shiftLeft, Nat.shiftLeft_eq]

/-- Settles O14: the chunk index fits the argument field, where it stands as the offset at bit 5. -/
theorem writeArgumentIsTheChunk : Obligations.WriteArgumentIsTheChunk := by
  intro off d hpage halign
  have hchunk : chunkIndex off ≤ 255 := by rw [chunkIndex]; omega
  refine ⟨(chunkIndex_shiftLeft halign).symm, hchunk, ?_⟩
  rw [← chunkIndex_shiftLeft halign, ← setWidth_ofNat_shiftLeft (by omega)]
  exact encode_command .write d _

/-- A pseudo-instruction whose condition fails is refused (R111). -/
theorem expandPseudo_of_not_wellFormed {p : Pseudo} (h : ¬ p.wellFormed = true) : ∃ e, expandPseudo p = .error e := by
  cases p <;> exact ⟨_, if_neg h⟩

/-- WRITEAT is the WRITE of its chunk (R111). -/
theorem expandPseudo_writeat {dev off : Nat} (hdev : dev ≤ 255) (hoff : off ≤ 0x7F8) (halign : off % 8 = 0)
    (data : Bytes8) :
    expandPseudo (.writeat dev off data) = .ok ⟨.write, dev, some (chunkIndex off), some data, none⟩ :=
  if_pos (by simp [Pseudo.wellFormed, hdev, hoff, halign])

/-- Settles O17: where the condition holds the expansion is the table's, else there is none. -/
theorem pseudoInstructions : Obligations.PseudoInstructions := by
  refine ⟨fun d p hd hp => ⟨if_pos ?pagesel, if_pos ?erasepg⟩, fun d off b hd hoff halign => ?writeat,
    fun d pos b hd halign => ?writepos, fun d p hp => ⟨?badPage, ?badErase⟩, fun d off b h => ?badOff,
    fun d pos b h => ?badPos⟩
  case pagesel | erasepg => simp [Pseudo.wellFormed, hd, hp]
  case writeat => rw [expandPseudo_writeat hd hoff halign, Nat.shiftRight_eq_div_pow]; rfl
  case writepos =>
    rw [expandPseudo_writeat hd (by omega) (by omega)]
    exact if_pos (by simp [Pseudo.wellFormed, hd, halign])
  case badPage | badErase | badOff | badPos =>
    apply expandPseudo_of_not_wellFormed
    simp only [Pseudo.wellFormed, Bool.and_eq_true, decide_eq_true_eq]
    omega

/-- An ID that is no reply row lacks BASE or REPLY (R103). -/
theorem bits_of_replyInstr_eq_none {id : Id} (h : replyInstr id = none) :
    id.getLsbD 28 = false ∨ id.getLsbD 27 = false := by
  obtain ⟨h28, -⟩ | ⟨-, h27, -⟩ | ⟨role, -, h27, -, he⟩ := decode_cases id
  · exact .inl h28
  · exact .inr h27
  · refine .inr (h27.trans (decide_eq_false fun hrole => ?_))
    rw [replyInstr_of_decode he (by rwa [Instr.role_ofRole])] at h
    cases h

/-- MATCH takes reply rows only: the expected ID has BASE and REPLY, and MATCH compares both (R103, R127). -/
theorem matchId_of_replyInstr_eq_none {id : Id} (h : replyInstr id = none) (s : State) :
    matchId id s.expId = false := by
  obtain h28 | h27 := bits_of_replyInstr_eq_none h
  · have hexp : s.expId.getLsbD 28 = true := by
      simp [State.expId, State.cmdId, replyIdFor, encodeId, baseMask, replyMask]
    refine Bool.eq_false_iff.mpr fun hm => ?_
    obtain ⟨-, hbits⟩ := (matchId_iff _ _).mp hm
    exact absurd (h28.symm.trans ((hbits 28 (by decide)).trans hexp)) (by decide)
  · exact matchId_of_not_reply h27

/-- Before the timeout a POLL without a match goes on waiting (R165, R166). -/
theorem afterNoMatch_of_le {s : State} (h : s.elapsed ≤ s.q.timeout.toNat) : afterNoMatch s = s :=
  if_neg (by simpa [timedOut] using h)

/-- Settles O31: what is no reply row matches nothing, and the wait is not over. -/
theorem pollDiscardsWhatIsNoReply : Obligations.PollDiscardsWhatIsNoReply := by
  intro s f rest hwait hq hrow htime
  have hdiscard := poll_without_match (.inr ⟨f, hq, matchId_of_replyInstr_eq_none hrow s, rfl⟩)
  rw [takeMove_poll hwait, hdiscard, afterNoMatch_of_le (by exact htime)]

/-- A word of 29 bits that decodes is the ID of its row (R60). -/
theorem decode_of_decodeTableWord {w : Nat} {i : Instr} (hw : w < 2 ^ 29) (h : decodeTableWord 32 w = some i) :
    decode (BitVec.ofNat 29 w) = .ok i := by
  rw [decodeTableWord, Nat.mod_eq_of_lt (by omega), decodeNat, if_pos hw] at h
  split at h
  · rename_i he; cases h; exact he
  · cases h

/-- A command's ID is placed on REQ (log 8). -/
theorem placeId_of_command {id : Id} {i : Instr} (h : decode id = .ok i) (hrole : i.role = .command) (s : State) :
    placeId id s = placeRequest i.fields s := by
  rw [placeId, decode_eq_ok_iff.mp h]
  simp [Instr.fields, hrole]

/-- A reply row's ID is placed at the head of the FIFO (log 8). -/
theorem placeId_of_reply {id : Id} {i : Instr} (h : decode id = .ok i) (hrole : i.role ≠ .command) (s : State) :
    placeId id s = placeFrame id s := by
  rw [placeId, decode_eq_ok_iff.mp h]
  simp [Instr.fields, hrole]

/-- A POLL leaves the schedule as it is. -/
theorem poll_moves (s : State) : (poll s).moves = s.moves := by
  obtain ⟨es, rest, -, ⟨f, -, -, -, he⟩ | ⟨-, ⟨-, he⟩ | ⟨-, -, he⟩ | ⟨-, -, -, he⟩ | ⟨-, -, -, he⟩⟩⟩ :=
    poll_cases s <;> rw [he] <;> rfl

/-- The step after a command is placed is its ACCEPT (log 8, 9). -/
theorem step_placeRequest {i : Instr} (hrole : i.role = .command) (s : State) :
    ∃ t, step (placeRequest i.fields s) = .next t ∧ t.moves = s.moves ∧
      exec i { placeRequest i.fields s with moves := s.moves, done := false } = .next t := by
  set placed : State := { placeRequest i.fields s with moves := s.moves, done := false }
  obtain ⟨r, hreq, hrow⟩ : ∃ r, placed.req = some r ∧ requestInstr r = i :=
    ⟨_, rfl, Instr.command_self hrole⟩
  have hexec := exec_requestInstr (s := placed) rfl hreq
  refine ⟨acceptRequest r placed, ?_, rfl, hrow ▸ hexec⟩
  rw [step_of_moves (s := placeRequest i.fields s) rfl]
  exact (takeMove_accept rfl hreq).trans hexec

/-- The step after a reply row is placed is the POLL that takes it (log 8, 10). -/
theorem step_placeFrame {id : Id} {i : Instr} (hrow : replyInstr id = some i) (s : State) :
    ∃ t, step (placeFrame id s) = .next t ∧ t.moves = s.moves ∧
      exec i { placeFrame id s with moves := s.moves, done := false } = .next t := by
  set placed : State := { placeFrame id s with moves := s.moves, done := false }
  have hpoll : takeMove (.block .poll) placed = .next (poll placed) := takeMove_poll rfl
  refine ⟨poll placed, ?_, poll_moves placed, ?_⟩
  · rw [step_of_moves (s := placeFrame id s) rfl]
    exact hpoll
  · rw [← takeMove_poll_reply (s := placed) rfl rfl hrow]
    exact hpoll

/-- Settles O41: a command is placed on REQ and accepted, a reply row at the head of the FIFO and polled. -/
theorem placedWordIsRun : Obligations.PlacedWordIsRun := by
  intro s w i hw h
  have hdec := decode_of_decodeTableWord hw h
  rw [State.withFetchWord, Nat.mod_eq_of_lt (by omega)]
  by_cases hrole : i.role = .command
  · rw [placeId_of_command hdec hrole]
    exact step_placeRequest hrole s
  · rw [placeId_of_reply hdec hrole]
    exact step_placeFrame (replyInstr_of_decode hdec hrole) s

end Sys2Proof.Machine

/-! SUPPORT. The codec's functions (40_codec.md R121 to R132) on the record DECODE answers: each mask writes one field,
and two IDs are equal where their records are. -/
namespace Sys2Proof

/-- An ID is determined by its fields (R126). -/
theorem decodeId_inj {id id' : Id} : decodeId id = decodeId id' ↔ id = id' :=
  (Function.LeftInverse.injective assembleId_decodeId).eq_iff

theorem decodeId_encodeId (dev : Dev) (kind : Kind) (arg : Arg) :
    decodeId (encodeId dev kind arg) = ⟨true, false, kind, false, arg, dev⟩ := by
  rw [encodeId_eq_assemble, decodeId_assembleId]

theorem decodeId_replyIdFor_encodeId (dev : Dev) (kind : Kind) (arg : Arg) :
    decodeId (replyIdFor (encodeId dev kind arg)) = ⟨true, true, kind, false, arg, dev⟩ := by
  rw [replyIdFor_encodeId, decodeId_assembleId]

/-- An expected reply ID has ERROR at 0 (R122). -/
theorem replyIdFor_encodeId_bit23 (dev : Dev) (kind : Kind) (arg : Arg) :
    (replyIdFor (encodeId dev kind arg)).getLsbD 23 = false :=
  congrArg IdFields.error (decodeId_replyIdFor_encodeId dev kind arg)

/-- The mask of bit 23, ORed into an ID, writes the error bit and no other field (R90). -/
theorem decodeId_or_maskIf_errorMask (id : Id) (e : Bool) :
    decodeId (id ||| maskIf e errorMask) = { decodeId id with error := (decodeId id).error || e } := by
  cases e <;> simp [decodeId, maskIf, errorMask, BitVec.extractLsb'_or]

/-- Its complement clears the error bit and no other field (R90). -/
theorem decodeId_and_not_errorMask (id : Id) :
    decodeId (id &&& ~~~errorMask) = { decodeId id with error := false } := by
  have hkind : (~~~errorMask).extractLsb' 24 3 = BitVec.allOnes 3 := by decide
  have harg : (~~~errorMask).extractLsb' 8 15 = BitVec.allOnes 15 := by decide
  have hdev : (~~~errorMask).extractLsb' 0 8 = BitVec.allOnes 8 := by decide
  simp only [decodeId, BitVec.extractLsb'_and, hkind, harg, hdev, BitVec.and_allOnes]
  simp [errorMask]

/-- A mask of one bit tests that bit. -/
theorem and_bne_zero_of_eq_twoPow {m : Id} {i : Nat} (hm : m = BitVec.twoPow 29 i) (hne : m ≠ 0) (id : Id) :
    ((id &&& m) != 0) = id.getLsbD i := by
  subst hm
  rw [BitVec.and_twoPow]
  cases id.getLsbD i with
  | false => rfl
  | true => exact bne_iff_ne.mpr hne

/-- The number of a concatenation is a sum. -/
theorem toNat_append_eq_add {m n : Nat} (x : BitVec m) (y : BitVec n) :
    (x ++ y).toNat = x.toNat * 2 ^ n + y.toNat := by
  rw [BitVec.toNat_append, ← Nat.shiftLeft_add_eq_or_of_lt y.isLt, Nat.shiftLeft_eq]

/-- ENCODE is the concatenation of its fields (R121). -/
theorem encodeId_eq_append (dev : Dev) (kind : Kind) (arg : Arg) :
    encodeId dev kind arg = 1#1 ++ 0#1 ++ kind.code ++ 0#1 ++ arg ++ dev := by
  rw [encodeId_eq_assemble, assembleId_eq_append]
  rfl

/-- ENCODE is the sum of its fields (R121). -/
theorem toNat_encodeId (dev : Dev) (kind : Kind) (arg : Arg) :
    (encodeId dev kind arg).toNat = 0x10000000 + kind.code.toNat * 0x01000000 + arg.toNat * 0x100 + dev.toNat := by
  simp only [encodeId_eq_append, toNat_append_eq_add, BitVec.toNat_ofNat]
  omega

/-- Settles O5: ENCODE assembles six disjoint fields, so its OR is a concatenation and a sum. -/
theorem encodePutsTheFields : Obligations.EncodePutsTheFields := by
  refine ⟨fun d k a => ?_, by decide, by decide, by decide⟩
  have hfields := decodeId_encodeId d k a
  have hsum := toNat_encodeId d k a
  have hkind := k.code.isLt
  have harg := a.isLt
  have hdev := d.isLt
  exact ⟨rfl, encodeId_eq_append d k a, hsum, congrArg IdFields.proto hfields, congrArg IdFields.reply hfields,
    congrArg IdFields.error hfields, by omega, by omega⟩

/-- Where bit 27 is 0, REPLY_ID_FOR changes it and no other bit (R122). -/
theorem replyIdFor_xor_self {c : Id} (h : c.getLsbD 27 = false) : replyIdFor c ^^^ c = replyMask := by
  have hmask : replyMask = BitVec.twoPow 29 27 := by decide
  apply BitVec.eq_of_getLsbD_eq
  intro i _
  rw [replyIdFor, BitVec.getLsbD_xor, BitVec.getLsbD_or, hmask, BitVec.getLsbD_twoPow]
  by_cases hi : 27 = i
  · subst hi; rw [h]; rfl
  · simp [hi]

/-- Settles O6: REPLY_ID_FOR is the OR with bit 27, which a command ID has at 0. -/
theorem replyIdForSetsBit27 : Obligations.ReplyIdForSetsBit27 := by
  refine ⟨fun c => ⟨rfl, ?idempotent, ?bit23⟩, fun d k a => ⟨?onlyBit27, ?noError⟩, by decide⟩
  case idempotent => rw [replyIdFor, replyIdFor, BitVec.or_assoc, BitVec.or_self]
  case bit23 => simp [replyIdFor, replyMask]
  case onlyBit27 => exact replyIdFor_xor_self (congrArg IdFields.reply (decodeId_encodeId d k a))
  case noError => exact replyIdFor_encodeId_bit23 d k a

/-- Settles O8: DECODE and field assembly are inverse, and ENCODE is an assembly. -/
theorem decodeIsInverseOfAssembly : Obligations.DecodeIsInverseOfAssembly :=
  ⟨fun _ => rfl, assembleId_decodeId, decodeId_assembleId, decodeId_encodeId, by decide⟩

end Sys2Proof

namespace Sys2Proof.Machine

/-- Bit 27 of a row's ID tells the replies from the commands (R98, R124). -/
theorem isReply_encode_ofRole (role : Role) (kind : Kind) (dev : Dev) (arg : Arg) :
    isReply (encode (Instr.ofRole role kind dev arg)) = decide (role ≠ .command) := by
  rw [encode_eq_assembleId, Instr.fields_ofRole]
  obtain ⟨-, hreply, -⟩ := Laws.Shape.assembleId_fixed _
  exact hreply

/-- What is below 0x10000000 has BASE at 0 (R125). -/
theorem isProto_eq_false_of_lt {id : Id} (h : id.toNat < 0x10000000) : isProto id = false := by
  rw [isProto, ← BitVec.testBit_toNat]
  exact Nat.testBit_lt_two_pow h

/-- Settles O7: each test is its mask's one bit, and bit 27 is 0 for the role of a command alone. -/
theorem bitTestsReadOneBit : Obligations.BitTestsReadOneBit := by
  refine ⟨fun id => ⟨?error, ?reply, rfl⟩, fun _ _ h => h, fun k d a => ⟨?command, ?valid, ?errorReply⟩,
    fun id h => isProto_eq_false_of_lt h, by decide, by decide, by decide, by decide, by decide, by decide⟩
  case error | reply => exact (and_bne_zero_of_eq_twoPow (by decide) (by decide) id).symm
  case command => exact isReply_encode_ofRole .command k d a
  case valid => exact isReply_encode_ofRole .validReply k d a
  case errorReply => exact isReply_encode_ofRole .errorReply k d a

/-- MATCH on the records: they are equal once the error bit is cleared (R127). -/
theorem matchId_iff_decodeId {id exp : Id} :
    matchId id exp = true ↔ { decodeId id with error := false } = decodeId exp := by
  rw [matchId, beq_iff_eq, ← decodeId_inj, decodeId_and_not_errorMask]

/-- What matches the reply expected for a command has the command's fields, BASE and REPLY (R127). -/
theorem matchId_replyIdFor_iff {id : Id} {d : Dev} {k : Kind} {a : Arg} :
    matchId id (replyIdFor (encodeId d k a)) = true ↔ decodeId id = ⟨true, true, k, (decodeId id).error, a, d⟩ := by
  rw [matchId_iff_decodeId, decodeId_replyIdFor_encodeId]
  generalize decodeId id = f
  cases f
  simp

/-- Settles O9: MATCH clears the error bit of the received ID and compares all six fields. -/
theorem matchIgnoresTheErrorBit : Obligations.MatchIgnoresTheErrorBit :=
  ⟨fun _ _ => rfl, fun _ d k a => ⟨replyIdFor_encodeId_bit23 d k a, matchId_replyIdFor_iff⟩,
    by decide, by decide, by decide, by decide⟩

/-- Settles O10: the verdict is a test of the ID's error bit under a test of the ID. -/
theorem verdictReadsTheIdOnly : Obligations.VerdictReadsTheIdOnly := by
  refine ⟨fun f exp => ⟨fun h => if_pos h, fun h => if_neg (Bool.eq_false_iff.mp h)⟩, fun f g exp h => ?sameId,
    by decide⟩
  case sameId => rw [classify, classify, h]

/-- MATCH accepts exactly two IDs: the expected one, and that with the error bit set (R130). -/
theorem matchId_iff_eq_or {id exp : Id} (hexp : exp.getLsbD 23 = false) :
    matchId id exp = true ↔ id = exp ∨ id = exp ||| maskIf true errorMask := by
  replace hexp : (decodeId exp).error = false := hexp
  rw [matchId_iff_decodeId, ← decodeId_inj, ← decodeId_inj (id' := exp ||| _), decodeId_or_maskIf_errorMask]
  generalize decodeId id = f
  generalize decodeId exp = g at hexp ⊢
  obtain ⟨proto, reply, kind, error, arg, dev⟩ := f
  cases g
  subst hexp
  cases error <;> simp

/-- Settles O11: the reply ID is the command's record with REPLY set, and a command has REPLY at 0. -/
theorem roundTripLaw : Obligations.RoundTripLaw := fun d k a =>
  have hmatch {id : Id} := matchId_iff_eq_or (id := id) (replyIdFor_encodeId_bit23 d k a)
  ⟨decodeId_replyIdFor_encodeId d k a, hmatch.mpr (.inl rfl), hmatch.mpr (.inr rfl),
    matchId_of_not_reply (congrArg IdFields.reply (decodeId_encodeId d k a))⟩

/-- A command ID determines its operands (R130). -/
theorem encodeId_inj {d d' : Dev} {k k' : Kind} {a a' : Arg} (h : encodeId d k a = encodeId d' k' a') :
    d = d' ∧ k = k' ∧ a = a' := by
  rw [← decodeId_inj, decodeId_encodeId, decodeId_encodeId] at h
  cases h
  exact ⟨rfl, rfl, rfl⟩

/-- A valid or error reply matches what is expected for its own command only (R130). -/
theorem eq_of_matchId_reply {d d' : Dev} {k k' : Kind} {a a' : Arg} {e : Bool}
    (h : matchId (replyIdFor (encodeId d k a) ||| maskIf e errorMask) (replyIdFor (encodeId d' k' a')) = true) :
    d = d' ∧ k = k' ∧ a = a' := by
  rw [matchId_iff_decodeId, decodeId_or_maskIf_errorMask, decodeId_replyIdFor_encodeId,
    decodeId_replyIdFor_encodeId] at h
  cases h
  exact ⟨rfl, rfl, rfl⟩

/-- Settles O12: DECODE reads back the operands of a command and of both its replies, and the Write argument is the chunk
of the in-page offset alone. -/
theorem exactlyTwoIdsMatch : Obligations.ExactlyTwoIdsMatch :=
  ⟨fun _ _ _ _ _ _ => encodeId_inj, fun _ d k a => matchId_iff_eq_or (replyIdFor_encodeId_bit23 d k a),
    fun _ _ _ _ _ _ _ => eq_of_matchId_reply, fun _ _ h => congrArg chunkIndex h⟩

/-- Of the two IDs that match, the one without the error bit is the expected one (R132). -/
theorem matchId_and_not_isError {id exp : Id} (hexp : exp.getLsbD 23 = false) :
    (matchId id exp && !isError id) = (id == exp) := by
  rw [Bool.eq_iff_iff, Bool.and_eq_true, beq_iff_eq, Bool.not_eq_true', matchId_iff_eq_or hexp]
  constructor
  · rintro ⟨rfl | rfl, herror⟩
    · rfl
    · simp [isError, errorMask, maskIf] at herror
  · rintro rfl
    exact ⟨.inl rfl, hexp⟩

/-- A POLL that answers MATCHED where there was no answer took the head of the FIFO, which matched (R165). -/
theorem poll_matched {s : State} (hnone : s.rsp.status = .none) (h : (poll s).rsp.status = .matched) :
    ∃ f rest, s.rxq = f :: rest ∧ matchId f.id s.expId = true ∧ (poll s).rsp.ok = !isError f.id := by
  obtain ⟨es, rest, -, ⟨f, hq, hm, -, he⟩ | ⟨-, ⟨-, he⟩ | ⟨-, -, he⟩ | ⟨-, -, -, he⟩ | ⟨-, -, -, he⟩⟩⟩ := poll_cases s
  · exact ⟨f, rest, hq, hm, by rw [he, takeMatch_rsp]⟩
  all_goals
    rw [he] at h
    simp [hnone] at h

/-- Settles O13: `rsp_ok` is the negated error bit of the matched frame, so it is the equality with the whole ID. -/
theorem validMeansEqualId : Obligations.ValidMeansEqualId := by
  refine ⟨fun id d k a => matchId_and_not_isError (replyIdFor_encodeId_bit23 d k a), ?_⟩
  intro s t f rest hq hwait hmove hmatched hnone
  cases (takeMove_poll hwait).symm.trans hmove
  obtain ⟨g, rest', hq', hm, hok⟩ := poll_matched hnone hmatched
  cases hq.symm.trans hq'
  have hvalid : (matchId f.id s.expId && !isError f.id) = (f.id == s.expId) :=
    matchId_and_not_isError (replyIdFor_encodeId_bit23 s.q.dev s.q.kind s.q.arg)
  rw [hm, Bool.true_and] at hvalid
  exact ⟨hm, hok.trans hvalid, fun h => by simpa [hok] using h⟩

end Sys2Proof.Machine

/-! SUPPORT. The commands and their replies (41_commands.md): a received reply row is read off the fields of its ID, and
a request runs to the reply with its own. -/
namespace Sys2Proof

/-- A valid reply's ID is REPLY_ID_FOR of its command's (R102, R122). -/
theorem encode_validReply (kind : Kind) (dev : Dev) (arg : Arg) :
    encode (Instr.validReply kind dev arg) = replyIdFor (encodeId dev kind arg) := by
  rw [replyIdFor_encodeId, encode_eq_assembleId]
  exact congrArg assembleId (Instr.fields_ofRole .validReply kind dev arg)

/-- An error reply's ID has ERROR set besides (R102). -/
theorem encode_errorReply (kind : Kind) (dev : Dev) (arg : Arg) :
    encode (Instr.errorReply kind dev arg) = errorReplyIdFor (encodeId dev kind arg) := by
  rw [errorReplyIdFor_encodeId, encode_eq_assembleId]
  exact congrArg assembleId (Instr.fields_ofRole .errorReply kind dev arg)

/-- The encoder writes the fields of the row (R98). -/
theorem decodeId_encode (i : Instr) : decodeId (encode i) = i.fields :=
  decode_eq_ok_iff.mp (decodeOfEncode i)

/-- Settles O15: a command's ID is ENCODE of its kind, and a reply's is that ORed with the masks of its role. -/
theorem idsOfTheRows : Obligations.IdsOfTheRows := by
  intro d a
  refine ⟨encode_command .ping d a, encode_command .pageselect d a, encode_command .lock d a,
    encode_command .unlock d a, encode_command .erase d a, encode_command .write d a, encode_command .read d a,
    encode_command .finish d a, fun k => ⟨?valid, ?error⟩⟩
  case valid => rw [encode_validReply, encode_command]; rfl
  case error => rw [encode_errorReply, encode_command, errorReplyIdFor, BitVec.or_assoc]; rfl

end Sys2Proof

namespace Sys2Proof.Machine

/-- A reply row's meaning is the receipt of a frame with the row's ID (R149). -/
theorem exec_reply {i : Instr} (hrole : i.role ≠ .command) (s : State) : exec i s = runReply (encode i) s :=
  exec_replyInstr (replyInstr_of_decode (decodeOfEncode i) hrole) s

/-- The response of R33 and R34 has the bytes of the frame, padded with 0x00. -/
theorem responseOf_eq (f : Frame) (ok : Bool) :
    responseOf f ok = ⟨.matched, ok, f.id, BitVec.ofNat 4 f.data.length, padData f.data⟩ := by
  have hbyte (i : Nat) : (if i < f.data.length then f.data.getD i 0 else 0) = f.data.getD i 0 :=
    ite_eq_left_iff.mpr fun hge => (List.getD_eq_default _ _ (Nat.not_lt.mp hge)).symm
  simp only [responseOf, hbyte, padData]

/-- Outside WAIT no poll is enabled (R161). -/
theorem runReply_of_ne_wait {s : State} (hst : s.st ≠ .wait) (id : Id) : runReply id s = .next s := by
  obtain ⟨hwait, -⟩ | ⟨-, he⟩ := runReply_cases id s
  · exact absurd hwait hst
  · exact he

section
variable {s : State} {f : Frame} {rest : List Frame}

/-- In WAIT the reply row of the frame at the head of the FIFO runs as POLL (R149, R165). -/
theorem exec_reply_of_head {i : Instr} (hrole : i.role ≠ .command) (hwait : s.st = .wait) (hq : s.rxq = f :: rest)
    (hid : f.id = encode i) : exec i s = .next (poll s) := by
  have hrow : replyInstr f.id = some i := hid ▸ replyInstr_of_decode (decodeOfEncode i) hrole
  rw [← takeMove_poll_reply hwait hq hrow, takeMove_poll hwait]

/-- A POLL that takes a frame with the fields of the expected reply, and either error bit, ends the request MATCHED
(R165, R168). -/
theorem poll_of_reply {e : Bool} (hq : s.rxq = f :: rest)
    (hid : decodeId f.id = ⟨true, true, s.q.kind, e, s.q.arg, s.q.dev⟩) :
    poll s = { s with st := .idle, done := true, sincePoll := 0, rxq := rest, rsp := responseOf f (!e)
                      hist := s.hist ++ [.rxMatch f, .done (responseOf f (!e))] } := by
  have hmatch : matchId f.id s.expId = true := matchId_replyIdFor_iff.mpr (by rw [hid])
  have herror : isError f.id = e := congrArg IdFields.error hid
  rw [poll_cons hq, examine_match (by exact hmatch), herror, responseOf_eq]
  simp [takeMatch, complete, emit]

/-- A reply row of the outstanding command, valid or error, completes it (R149, R165). -/
theorem exec_outstanding_reply {role : Role} (hrole : role ≠ .command) (hwait : s.st = .wait) (hq : s.rxq = f :: rest)
    (hid : f.id = encode (Instr.ofRole role s.q.kind s.q.dev s.q.arg)) :
    exec (Instr.ofRole role s.q.kind s.q.dev s.q.arg) s = .next
      { s with st := .idle, done := true, sincePoll := 0, rxq := rest, rsp := responseOf f (!decide (role = .errorReply))
               hist := s.hist ++ [.rxMatch f, .done (responseOf f (!decide (role = .errorReply)))] } := by
  rw [exec_reply_of_head (by rwa [Instr.role_ofRole]) hwait hq hid, poll_of_reply hq]
  rw [hid, decodeId_encode, Instr.fields_ofRole, decide_eq_true hrole]

/-- A row that matches the outstanding command has its kind, device and argument (R127, R149). -/
theorem operands_of_matchId_encode {i : Instr} (h : matchId (encode i) s.expId = true) :
    (i.kind, i.dev, i.arg) = (s.q.kind, s.q.dev, s.q.arg) := by
  have hfields := matchId_replyIdFor_iff.mp h
  rw [decodeId_encode] at hfields
  have hkind : i.kind = s.q.kind := congrArg IdFields.kind hfields
  have hdev : i.dev = s.q.dev := congrArg IdFields.dev hfields
  have harg : i.arg = s.q.arg := congrArg IdFields.arg hfields
  rw [hkind, hdev, harg]

end

/-- Settles O22: the row has the role of a valid reply, with ERROR at 0. -/
theorem validReplyCompletes : Obligations.ValidReplyCompletes := fun _ _ _ =>
  exec_outstanding_reply (role := .validReply) nofun

/-- Settles O23: the row has the role of an error reply, with ERROR at 1. -/
theorem errorReplyCompletes : Obligations.ErrorReplyCompletes := fun _ _ _ =>
  exec_outstanding_reply (role := .errorReply) nofun

/-- Settles O24: the row is polled and, with other operands, does not match; the wait is not over. -/
theorem otherReplyIsDiscarded : Obligations.OtherReplyIsDiscarded := by
  intro s i f rest hrole hwait hq hid hother htime
  have hmatch : matchId f.id s.expId = false :=
    Bool.eq_false_iff.mpr fun h => hother (operands_of_matchId_encode (hid ▸ h))
  rw [exec_reply_of_head hrole hwait hq hid, poll_without_match (.inr ⟨f, hq, hmatch, rfl⟩),
    afterNoMatch_of_le (by exact htime)]

/-- Settles O25: the row at the head is polled in WAIT, and no row is polled outside it. -/
theorem replyRunsAsPoll : Obligations.ReplyRunsAsPoll :=
  ⟨fun _ _ _ _ => exec_reply_of_head, fun s _ hrole hst => (exec_reply hrole s).trans (runReply_of_ne_wait hst _)⟩

/-- The reply ID with an error bit of choice has the fields of the command, with BASE and REPLY (R102). -/
theorem decodeId_reply (dev : Dev) (kind : Kind) (arg : Arg) (e : Bool) :
    decodeId (maskIf e 0x00800000 ||| 0x08000000 ||| encodeId dev kind arg) = ⟨true, true, kind, e, arg, dev⟩ := by
  have hid : maskIf e 0x00800000 ||| 0x08000000 ||| encodeId dev kind arg =
      replyIdFor (encodeId dev kind arg) ||| maskIf e errorMask := by
    rw [replyIdFor, replyMask, errorMask]
    ac_rfl
  rw [hid, decodeId_or_maskIf_errorMask, decodeId_replyIdFor_encodeId, Bool.false_or]

section
variable {s : State} {ms : List Move} {n : Nat}

/-- A run whose schedule is not empty takes its first listed move (R16). -/
theorem run_of_moves {m : Move} {t : State} (hmoves : s.moves = m :: ms)
    (hmove : takeMove m { s with moves := ms, done := false } = .next t) :
    Host.Core.run core (n + 1) s = Host.Core.run core n t :=
  run_succ ((step_of_moves hmoves).trans hmove)

/-- A presented request is accepted, the FIFO flushed and the command frame sent (R162 to R164). -/
theorem run_accept_drain_send {r : Request} (hidle : s.st = .idle) (hreq : s.req = some r)
    (hmoves : s.moves = .block .accept :: .block .drain :: .block .send :: ms) :
    ∃ t res, Host.Core.run core (n + 3) s = Host.Core.run core n t ∧ t.st = .wait ∧ t.moves = ms ∧ t.cfg = s.cfg ∧
      t.q = latchedOf s.cfg r ∧ t.attempts = 1 ∧ t.rxq = [] ∧
      t.hist = s.hist ++ [.accept t.q, .flush s.rxq, .tx (encodeId r.dev r.kind r.arg) 8 r.data res] := by
  set presented : State := { s with moves := .block .drain :: .block .send :: ms, done := false }
  set accepted := acceptRequest r presented
  set drained := drain { accepted with moves := .block .send :: ms, done := false }
  set ready : State := { drained with moves := ms, done := false }
  have haccept : takeMove (.block .accept) presented = .next accepted :=
    (takeMove_accept (s := presented) hidle hreq).trans (exec_requestInstr hidle hreq)
  refine ⟨send ready, (drawTxResult ready).1, ?_, rfl, send_moves _, send_cfg _, send_q _, rfl, send_rxq _, ?_⟩
  · rw [run_of_moves hmoves haccept, run_of_moves (t := drained) rfl rfl, run_of_moves (t := send ready) rfl rfl]
  · simp [ready, drained, accepted, presented, State.cmdId, latchedOf]

/-- An empty FIFO of a depth other than 0 takes the frame that arrives (R63, R64). -/
theorem arrive_of_empty {f : Frame} (hempty : s.rxq = []) (hdepth : s.cfg.rxqDepth ≠ some 0) :
    arrive f s = emit (.arrive f) { s with rxq := [f] } := by
  have hroom : rxqHasRoom s = true := by
    rw [rxqHasRoom_iff, hempty]
    cases hd : s.cfg.rxqDepth with
    | none => exact .inl rfl
    | some n => exact .inr ⟨n, rfl, Nat.pos_of_ne_zero fun h0 => hdepth (by rw [hd, h0])⟩
  rw [arrive, if_pos hroom, hempty]
  rfl

/-- A reply that arrives in an empty FIFO, and is polled, completes the request (R64, R165, R168). -/
theorem run_arrive_poll {raw : RawFrame} {f : Frame} {e : Bool} (hwait : s.st = .wait) (hempty : s.rxq = [])
    (hdepth : s.cfg.rxqDepth ≠ some 0) (hraw : frameOfRaw raw = some f)
    (hid : decodeId f.id = ⟨true, true, s.q.kind, e, s.q.arg, s.q.dev⟩)
    (hmoves : s.moves = .arrive raw :: .block .poll :: ms) :
    ∃ t, Host.Core.run core (n + 2) s = Host.Core.run core n t ∧ t.st = .idle ∧ t.q = s.q ∧
      t.attempts = s.attempts ∧ t.rxq = [] ∧ t.rsp = responseOf f (!e) ∧
      t.hist = s.hist ++ [.arrive f, .rxMatch f, .done t.rsp] := by
  set listed : State := { s with moves := .block .poll :: ms, done := false }
  set polled : State := { emit (.arrive f) { listed with rxq := [f] } with moves := ms, done := false }
  have harrive : takeMove (.arrive raw) listed = .next (emit (.arrive f) { listed with rxq := [f] }) := by
    rw [← arrive_of_empty (s := listed) hempty hdepth]
    simp only [takeMove, hraw]
  have hpoll : takeMove (.block .poll) polled = .next (poll polled) := takeMove_poll hwait
  have hmatched := poll_of_reply (s := polled) rfl hid
  refine ⟨poll polled, ?_, ?_⟩
  · rw [run_of_moves hmoves harrive, run_of_moves rfl hpoll]
  · rw [hmatched]
    simp [polled, listed]

end

/-- Settles O54: the request reaches WAIT with an empty FIFO, where the reply to its latched operands completes it. -/
theorem requestRunsToItsReply : Obligations.RequestRunsToItsReply := by
  intro s r isErr data hidle hreq hdepth hlen hmoves
  have hid := decodeId_reply r.dev r.kind r.arg isErr
  generalize maskIf isErr 0x00800000 ||| 0x08000000 ||| encodeId r.dev r.kind r.arg = id at hid hmoves ⊢
  have hraw : frameOfRaw ⟨id.toNat, data.length, data⟩ = some ⟨id, data⟩ := by
    rw [frameOfRaw_of_wellFormed id.isLt hlen rfl, BitVec.ofNat_toNat, BitVec.setWidth_eq]
  obtain ⟨t, res, hrun, hwait, htmoves, hcfg, hq, hattempts, hempty, hhist⟩ :=
    run_accept_drain_send (n := 2) hidle hreq hmoves
  obtain ⟨u, hrun', huidle, huq, huattempts, hurxq, hursp, huhist⟩ :=
    run_arrive_poll (n := 0) hwait hempty (hcfg ▸ hdepth) hraw (by rw [hq]; exact hid) htmoves
  refine ⟨u, res, hrun.trans hrun', huidle, hurxq, huattempts.trans hattempts, hursp.trans (responseOf_eq _ _), ?_⟩
  rw [huhist, hhist, huq, List.append_assoc]
  rfl

end Sys2Proof.Machine

/-! SUPPORT. The rules of the block's steps (42_sender.md R161 to R170): where each is enabled and
what it does, and the statements that say so. -/
namespace Sys2Proof

/-- The one value of `st` in which a block step is enabled (R161). -/
def BlockStep.phase : BlockStep → Machine.Phase
  | .accept => .idle
  | .drain => .drain
  | .send => .send
  | .poll => .wait

theorem BlockStep.phase_inj {b b' : BlockStep} (h : b.phase = b'.phase) : b = b' := by
  revert h
  cases b <;> cases b' <;> decide

end Sys2Proof

namespace Sys2Proof.Machine

/-- The retry limit stops a request exactly where one is set and reached (R167, R181). -/
theorem limitHit_iff (s : State) :
    limitHit s = true ↔ s.cfg.retryLimit ≠ 0 ∧ s.cfg.retryLimit.toNat ≤ s.attempts.toNat := by
  simp [limitHit]

/-- An ARRIVE writes the FIFO and the history only (R64). -/
theorem arrive_eq (f : Frame) (s : State) :
    arrive f s = { s with rxq := (arrive f s).rxq, hist := (arrive f s).hist } := by
  obtain ⟨-, he⟩ | ⟨-, he⟩ := arrive_cases f s <;> rw [he] <;> rfl

/-- A POLL neither counts an attempt nor takes a request off the channel (R165, R184). -/
theorem poll_keeps_attempts_req (s : State) : (poll s).attempts = s.attempts ∧ (poll s).req = s.req := by
  obtain ⟨es, rest, -, ⟨f, -, -, -, he⟩ | ⟨-, ⟨-, he⟩ | ⟨-, -, he⟩ | ⟨-, -, -, he⟩ | ⟨-, -, -, he⟩⟩⟩ :=
    poll_cases s <;> rw [he] <;> exact ⟨rfl, rfl⟩

section
variable {s : State}

/-- A block step is not enabled outside its phase, and ACCEPT not with nothing presented (R161). -/
theorem takeMove_block_refused {b : BlockStep} (h : s.st ≠ b.phase ∨ b = .accept ∧ s.req = none) :
    takeMove (.block b) s = .refused .notEnabled := by
  change blockMove b s = _
  unfold blockMove
  split
  next hst =>
    obtain h | ⟨-, hreq⟩ := h
    · exact absurd hst h
    · rw [hreq]
  next hst => simp [BlockStep.phase, hst] at h
  next hst => simp [BlockStep.phase, hst] at h
  next hst => simp [BlockStep.phase, hst] at h
  next => rfl

/-- The block's ACCEPT as a move (R162). -/
theorem takeMove_accept_eq {r : Request} (hidle : s.st = .idle) (hreq : s.req = some r) :
    takeMove (.block .accept) s = .next (acceptRequest r s) :=
  (takeMove_accept hidle hreq).trans (exec_requestInstr hidle hreq)

/-- The block's DRAIN as a move (R163). -/
theorem takeMove_drain (h : s.st = .drain) : takeMove (.block .drain) s = .next (drain s) := by
  simp [takeMove, blockMove, h]

/-- The block's SEND as a move (R164). -/
theorem takeMove_send (h : s.st = .send) : takeMove (.block .send) s = .next (send s) := by
  simp [takeMove, blockMove, h]

/-- TICK is held exactly in WAIT once `POLL_INTERVAL` ticks have passed since the last poll (R172). -/
theorem tickEnabled_iff : tickEnabled s = true ↔ (s.st = .wait → s.sincePoll < s.cfg.pollInterval) := by
  simp [tickEnabled, imp_iff_not_or]

/-- The timebase's TICK as a move (R170). -/
theorem takeMove_tick (h : s.st = .wait → s.sincePoll < s.cfg.pollInterval) :
    takeMove .tick s = .next (tick s) :=
  if_pos (tickEnabled_iff.mpr h)

/-- SEND as one record update (R164): the draw of the TxSend gives the result it records. -/
theorem send_eq_of_draw (s : State) :
    send s = { s with st := .wait, attempts := countAttempt s.attempts, elapsed := 0, sincePoll := 0
                      txDraw := none, freeCtr := (drawTxResult s).2.freeCtr
                      hist := s.hist ++ [.tx s.cmdId 8 s.q.data (drawTxResult s).1] } := by
  rw [send, txSend, drawTxResult_state]
  rfl

/-- The timeout test after no match, with the outcomes in the priority of R167. -/
theorem afterNoMatch_eq (s : State) :
    afterNoMatch s =
      if s.elapsed ≤ s.q.timeout.toNat then s
      else if s.cancel = true then complete .cancelled (emit (.timeout s.attempts) s)
      else if s.cfg.retryLimit ≠ 0 ∧ s.cfg.retryLimit.toNat ≤ s.attempts.toNat then
        complete .exhausted (emit (.timeout s.attempts) s)
      else { emit (.timeout s.attempts) s with st := .send } := by
  simp only [afterNoMatch, stopOrRetry, timedOut, decide_eq_true_eq, gt_iff_lt, ← Nat.not_le, ite_not,
    ← limitHit_iff]
  rfl

/-- A POLL whose head of the FIFO matches takes the match (R165). -/
theorem poll_of_match {f : Frame} {rest : List Frame} (hq : s.rxq = f :: rest) (hm : matchId f.id s.expId = true) :
    poll s = takeMatch f (!isError f.id) { s with sincePoll := 0, rxq := rest } := by
  rw [poll_cons hq, examine_match (by exact hm)]

/-- The head of the FIFO matches, or a POLL finds no match, with the events and the FIFO that it leaves (R165). -/
theorem head_matches_or_not (s : State) :
    (∃ f rest, s.rxq = f :: rest ∧ matchId f.id s.expId = true) ∨
    ∃ (es : List Event) (rest : List Frame), s.rxq = [] ∧ rest = [] ∧ es = [] ∨
      ∃ f, s.rxq = f :: rest ∧ matchId f.id s.expId = false ∧ es = [.rxDiscard f] := by
  cases hq : s.rxq with
  | nil => exact .inr ⟨[], [], .inl ⟨rfl, rfl, rfl⟩⟩
  | cons f rest =>
    cases hm : matchId f.id s.expId with
    | true => exact .inl ⟨f, rest, rfl, hm⟩
    | false => exact .inr ⟨_, rest, .inr ⟨f, rfl, hm, rfl⟩⟩

/-- Byte i of an array given by its bytes (R34). -/
theorem get_ofIndex (g : Nat → Byte) {i : Nat} (h : i < 8) : (Bytes8.ofIndex g).get i = g i := by
  interval_cases i <;> rfl

/-- A move that answers a next state can be taken. -/
theorem canTake_of_next {m : Move} {t : State} (h : takeMove m s = .next t) : canTake m s = true := by
  rw [canTake, h]

theorem canTake_of_refused {m : Move} {e : Refusal} (h : takeMove m s = .refused e) : canTake m s = false := by
  rw [canTake, h]

/-- A block step that can be taken is taken in its phase (R161). -/
theorem st_eq_phase_of_canTake {b : BlockStep} (h : canTake (.block b) s = true) : s.st = b.phase := by
  by_contra hst
  rw [canTake_of_refused (takeMove_block_refused (.inl hst))] at h
  cases h

/-- A busy block, and an idle one with a request presented, has an enabled step (R161). -/
theorem exists_canTake_block (h : s.st ≠ .idle ∨ s.req ≠ none) : ∃ b, canTake (.block b) s = true := by
  cases hst : s.st with
  | idle =>
    obtain ⟨r, hreq⟩ := Option.ne_none_iff_exists'.mp (h.resolve_left (not_not_intro hst))
    exact ⟨.accept, canTake_of_next (takeMove_accept_eq hst hreq)⟩
  | drain => exact ⟨.drain, canTake_of_next (takeMove_drain hst)⟩
  | send => exact ⟨.send, canTake_of_next (takeMove_send hst)⟩
  | wait => exact ⟨.poll, canTake_of_next (takeMove_poll hst)⟩

end

/-- Settles O18: the request's row is its ACCEPT, and a tick of 1 ms gives a default timeout of 100. -/
theorem commandIsAcceptedInIdle : Obligations.CommandIsAcceptedInIdle := by
  refine ⟨fun s r hidle hreq => exec_requestInstr hidle hreq, fun s h => ?refused, by decide⟩
  case refused => exact takeMove_block_refused (h.imp id fun hreq => ⟨rfl, hreq⟩)

/-- Settles O27: DRAIN is one update of the FIFO, the history and `st`. -/
theorem drainFlushesTheQueue : Obligations.DrainFlushesTheQueue := fun _ =>
  ⟨takeMove_drain, fun h => takeMove_block_refused (.inl h)⟩

/-- Settles O28: the result and the next free value are those of the draw, which a fixed result decides. -/
theorem sendTransmitsTheFrame : Obligations.SendTransmitsTheFrame := by
  refine ⟨fun s hsend => ⟨(drawTxResult s).1, (drawTxResult s).2.freeCtr, ?next, fun r hfixed => ?fixed⟩,
    fun s h => takeMove_block_refused (.inl h)⟩
  case next => rw [takeMove_send hsend, send_eq_of_draw]; rfl
  case fixed => rw [drawTxResult, hfixed]; exact ⟨rfl, rfl⟩

/-- Settles O32: TICK is one update, which `st` decides, and what holds it is the interval. -/
theorem tickCountsInWaitOnly : Obligations.TickCountsInWaitOnly := by
  refine fun s => ⟨fun hst => ?outside, fun hwait hlt => ?counts, fun hwait hge => if_neg ?held⟩
  case outside =>
    rw [takeMove_tick fun hwait => absurd hwait hst, tick_eq, if_neg hst, if_neg hst]
    rfl
  case counts =>
    rw [takeMove_tick fun _ => hlt, tick_eq, if_pos hwait, if_pos hwait]
    rfl
  case held => exact fun h => Nat.not_lt.mpr hge (tickEnabled_iff.mp h hwait)

/-- Settles O57: each phase has its own step, and ACCEPT needs a request. -/
theorem exactlyOneBlockStepIsEnabled : Obligations.ExactlyOneBlockStepIsEnabled := by
  refine fun s => ⟨fun hidle hreq b => canTake_of_refused (takeMove_block_refused ?none), fun h => ?one⟩
  case none =>
    cases b with
    | accept => exact .inr ⟨rfl, hreq⟩
    | drain | send | poll => exact .inl (by rw [hidle]; nofun)
  case one =>
    obtain ⟨b, hb⟩ := exists_canTake_block h
    exact ⟨b, hb, fun b' hb' =>
      BlockStep.phase_inj ((st_eq_phase_of_canTake hb').symm.trans (st_eq_phase_of_canTake hb))⟩

/-- Settles O29: the match is tested first, and the response has the bytes of the frame. -/
theorem pollTakesTheMatchFirst : Obligations.PollTakesTheMatchFirst := by
  intro s f rest hwait hq hmatch
  refine ⟨_, (takeMove_poll hwait).trans (congrArg _ (poll_of_match hq hmatch)), rfl, rfl, rfl, rfl, rfl, rfl, rfl, rfl, rfl,
    fun i hi => ?bytes, ?events⟩
  case bytes =>
    rw [takeMatch_rsp, ← responseOf_eq]
    exact get_ofIndex _ hi
  case events => rw [takeMatch_hist, takeMatch_rsp, List.append_assoc]; rfl

/-- Settles O30: after no match POLL is the timeout test, whose outcomes stand in the priority of R167. -/
theorem pollWithoutMatch : Obligations.PollWithoutMatch := by
  intro s es rest hwait h
  rw [takeMove_poll hwait, poll_without_match h, afterNoMatch_eq]
  simp only [complete, emit, List.append_assoc, List.cons_append, List.nil_append]

end Sys2Proof.Machine

/-! SUPPORT. What a request transmits (42_sender.md R178, R181): every move keeps the retry bound and the one frame. -/
namespace Sys2Proof.Machine

section
variable {s : State}

/-- The bound is read off the limit, `attempts`, and whether a transmission is due. -/
theorem LimitInv.of_eq (hs : LimitInv s) {t : State} (hcfg : t.cfg = s.cfg) (hattempts : t.attempts = s.attempts)
    (hdue : t.st = .drain ∨ t.st = .send → s.st = .drain ∨ s.st = .send) : LimitInv t := by
  intro hlimit
  rw [hcfg] at hlimit ⊢
  obtain ⟨hle, hlt⟩ := hs hlimit
  rw [hattempts]
  exact ⟨hle, fun h => hlt (hdue h)⟩

/-- No attempt is counted yet, so any limit leaves room for the first. -/
theorem limitInv_of_attempts_eq_zero (h : s.attempts = 0) : LimitInv s := by
  intro hlimit
  have hpos : 0 < s.cfg.retryLimit.toNat := Nat.pos_of_ne_zero fun h0 => hlimit (BitVec.eq_of_toNat_eq h0)
  rw [h]
  exact ⟨Nat.zero_le _, fun _ => hpos⟩

/-- SEND counts one attempt, from below the limit (R164). -/
theorem LimitInv.send (hs : LimitInv s) (hsend : s.st = .send) : LimitInv (send s) := by
  intro hlimit
  rw [send_cfg] at hlimit ⊢
  obtain ⟨-, hlt⟩ := hs hlimit
  have hbelow := hlt (.inr hsend)
  rw [send_attempts, countAttempt_toNat]
  exact ⟨by omega, by rw [send_st]; nofun⟩

/-- A POLL goes back to SEND only below the limit (R167). -/
theorem LimitInv.poll (hs : LimitInv s) : LimitInv (poll s) := by
  obtain ⟨es, rest, -, ⟨f, -, -, -, he⟩ | ⟨-, ⟨-, he⟩ | ⟨-, -, he⟩ | ⟨-, -, -, he⟩ | ⟨-, -, hbelow, he⟩⟩⟩ :=
    poll_cases s <;> rw [he]
  · exact hs.of_eq rfl rfl nofun
  · exact hs.of_eq rfl rfl id
  · exact hs.of_eq rfl rfl nofun
  · exact hs.of_eq rfl rfl nofun
  · intro hlimit
    have hnot : ¬ s.cfg.retryLimit.toNat ≤ s.attempts.toNat := fun hle =>
      Bool.eq_false_iff.mp hbelow ((limitHit_iff s).mpr ⟨hlimit, hle⟩)
    exact ⟨(Nat.not_le.mp hnot).le, fun _ => Nat.not_le.mp hnot⟩

/-- Every move keeps the retry bound. -/
theorem LimitInv.of_moved {t : State} (hs : LimitInv s) (h : Moved s t) : LimitInv t := by
  cases h with
  | accept | reset => exact limitInv_of_attempts_eq_zero rfl
  | drain h => exact hs.of_eq rfl rfl fun _ => .inl h
  | send h => exact hs.send h
  | poll => exact hs.poll
  | arrive f => rw [arrive_eq]; exact hs.of_eq rfl rfl id
  | tick => rw [tick_eq]; exact hs.of_eq rfl rfl id
  | host => exact hs.of_eq rfl rfl id

end

/-- Settles O45: only SEND counts, it comes from below the limit, and a POLL leads to it from below the limit only. -/
theorem stepKeepsLimit : Obligations.StepKeepsLimit :=
  keeps_of_moved (fun _ _ _ _ hs => hs.of_eq rfl rfl id) (fun _ _ => LimitInv.of_moved)

/-- A POLL transmits nothing (R165). -/
theorem transmitted_poll (s : State) : transmitted (poll s).hist = transmitted s.hist := by
  obtain ⟨es, rest, -, ⟨f, -, -, -, he⟩ | ⟨hes, hends⟩⟩ := poll_cases s
  · rw [he, takeMatch_hist, transmitted_append, transmitted_append]
  · have hdiscard : transmitted (s.hist ++ es) = transmitted s.hist := by
      obtain rfl | ⟨f, rfl⟩ := hes
      · rw [List.append_nil]
      · rw [transmitted_append]
    have htimeout : transmitted (s.hist ++ es ++ [.timeout s.attempts]) = transmitted s.hist := by
      rw [transmitted_append, hdiscard]
    obtain ⟨-, he⟩ | ⟨-, -, he⟩ | ⟨-, -, -, he⟩ | ⟨-, -, -, he⟩ := hends <;> rw [he]
    · exact hdiscard
    · exact (transmitted_append _ _).trans htimeout
    · exact (transmitted_append _ _).trans htimeout
    · exact htimeout

section
variable {s : State}

/-- What is transmitted is compared with the latched request and counted by `attempts`, nothing else is read. -/
theorem SameFrameInv.of_eq (hs : SameFrameInv s) {t : State} (hq : t.q = s.q) (hattempts : t.attempts = s.attempts)
    (htransmitted : transmitted t.hist = transmitted s.hist) : SameFrameInv t := by
  rwa [SameFrameInv, State.cmdId, hq, hattempts, htransmitted]

/-- Nothing is transmitted yet and no attempt is counted. -/
theorem sameFrameInv_of_nothing_transmitted (htransmitted : transmitted s.hist = []) (hattempts : s.attempts = 0) :
    SameFrameInv s := by
  rw [SameFrameInv, htransmitted, hattempts]
  exact ⟨nofun, rfl⟩

/-- SEND transmits the command frame and counts it (R164, R178). -/
theorem SameFrameInv.send (hs : SameFrameInv s) : SameFrameInv (send s) := by
  obtain ⟨hsame, hcount⟩ := hs
  have hsent : transmitted (Machine.send s).hist = transmitted s.hist ++ [(s.cmdId, 8, s.q.data)] := by
    rw [send_hist, transmitted_append]
  have hcmdId : (Machine.send s).cmdId = s.cmdId := by rw [State.cmdId, send_q, State.cmdId]
  rw [SameFrameInv, hsent, hcmdId, send_q, send_attempts, countAttempt_toNat, hcount]
  refine ⟨fun x hx => ?_, by rw [List.length_append, List.length_singleton]; omega⟩
  obtain hx | hx := List.mem_append.mp hx
  · exact hsame x hx
  · exact List.mem_singleton.mp hx

/-- Every move keeps that the transmissions are one frame, and their count. -/
theorem SameFrameInv.of_moved {t : State} (hs : SameFrameInv s) (h : Moved s t) : SameFrameInv t := by
  cases h with
  | accept | reset => exact sameFrameInv_of_nothing_transmitted (transmitted_append _ _) rfl
  | drain => exact hs.of_eq rfl rfl (transmitted_append _ _)
  | send => exact hs.send
  | poll => exact hs.of_eq (poll_keeps s).1 (poll_keeps_attempts_req s).1 (transmitted_poll s)
  | arrive f =>
    obtain ⟨-, he⟩ | ⟨-, he⟩ := arrive_cases f s <;> rw [he] <;> exact hs.of_eq rfl rfl (transmitted_append _ _)
  | tick => rw [tick_eq]; exact hs.of_eq rfl rfl (transmitted_append _ _)
  | host => exact hs.of_eq rfl rfl rfl

end

/-- Settles O47: ACCEPT and RESET start the count at 0, and only SEND transmits, always the command frame. -/
theorem stepKeepsSameFrame : Obligations.StepKeepsSameFrame :=
  keeps_of_moved (fun _ _ _ _ hs => hs.of_eq rfl rfl rfl) (fun _ _ => SameFrameInv.of_moved)

end Sys2Proof.Machine

/-! SUPPORT. What a step does with a presented request, and how a request ends (42_sender.md R165 to R184). -/
namespace Sys2Proof.Machine

/-- A step with no move listed is a free move, with the strobe cleared and one more value drawn (log 1). -/
theorem step_of_no_moves {s : State} (h : s.moves = []) :
    step s = takeFreeMove (Config.freeMove s.freeCtr) { s with freeCtr := s.freeCtr + 1, done := false } := by
  rw [step, stepAgents, h]
  simp only [beginMove]

/-- A run that is refused ends there. -/
theorem run_refused {n : Nat} {s : State} {e : Refusal} (h : step s = .refused e) :
    Host.Core.run core (n + 1) s = .refused e := by
  have hstep : core.step s = .refused e := h
  simp only [Host.Core.run, hstep]

/-- A free move is some move: the drawn one, or the one that replaces it (log 2). -/
theorem takeMove_of_takeFreeMove {drawn : Move} {s t : State} (h : takeFreeMove drawn s = .next t) :
    ∃ m, takeMove m s = .next t := by
  unfold takeFreeMove at h
  split at h
  next u hu => exact ⟨drawn, hu.trans h⟩
  next => exact ⟨ownMove s, h⟩
  next => exact ⟨ownMove s, h⟩

/-- Every step is a move taken with the strobe cleared and the schedule advanced. -/
theorem takeMove_of_step {s t : State} (h : step s = .next t) :
    ∃ (m : Move) (moves : List Move) (freeCtr : Nat),
      takeMove m { s with done := false, moves := moves, freeCtr := freeCtr } = .next t := by
  cases hmoves : s.moves with
  | nil =>
    rw [step_of_no_moves hmoves] at h
    obtain ⟨m, hm⟩ := takeMove_of_takeFreeMove h
    exact ⟨m, s.moves, s.freeCtr + 1, hm⟩
  | cons m ms =>
    rw [step_of_moves hmoves] at h
    exact ⟨m, ms, s.freeCtr, h⟩

section
variable {s t : State}

/-- A block step takes a request off the channel in IDLE only (R184). -/
theorem req_of_takeMove_block {b : BlockStep} (h : takeMove (.block b) s = .next t) :
    t.req = s.req ∨ s.st = .idle := by
  by_cases hst : s.st = b.phase
  · cases b with
    | accept => exact .inr hst
    | drain => cases (takeMove_drain hst).symm.trans h; exact .inl rfl
    | send => cases (takeMove_send hst).symm.trans h; exact .inl (send_req s)
    | poll => cases (takeMove_poll hst).symm.trans h; exact .inl (poll_keeps_attempts_req s).2
  · cases (takeMove_block_refused (.inl hst)).symm.trans h

/-- The reference client presents a request to an idle block only (R200). -/
theorem idle_of_clientAsk {kind : Kind} {c : Client} (h : clientAsk kind c s = .next t) : s.st = .idle := by
  unfold clientAsk at h
  split at h
  next => cases h
  next =>
    split at h
    next hready => exact hready.left
    next => cases h

/-- It reads a response of an idle block only (R203). -/
theorem idle_of_clientRead {kind : Kind} {c : Client} (h : clientRead kind c s = .next t) : s.st = .idle := by
  unfold clientRead at h
  split at h
  next hready => exact hready.left
  next => cases h

/-- While the block is busy the reference client leaves the channel as it is (R200). -/
theorem req_of_clientStep (h : clientStep s = .next t) : t.req = s.req ∨ s.st = .idle := by
  unfold clientStep at h
  split at h
  next => cases h
  next c _ =>
    split at h
    next kind _ =>
      split at h
      next => exact .inr (idle_of_clientRead h)
      next => exact .inr (idle_of_clientAsk h)
    next =>
      split at h
      next => cases h; exact .inl rfl
      all_goals cases h

/-- A move changes the channel only in IDLE, or where nothing is presented (R184, R200). -/
theorem req_of_takeMove {m : Move} (h : takeMove m s = .next t) : t.req = s.req ∨ s.st = .idle ∨ s.req = none := by
  cases m with
  | block b => exact (req_of_takeMove_block h).imp id .inl
  | client => exact (req_of_clientStep h).imp id .inl
  | present raw =>
    simp only [takeMove, presentMove] at h
    split at h
    · cases h
    · split at h
      next hfree => exact .inr (.inr hfree.1)
      next => cases h
  | arrive raw =>
    simp only [takeMove] at h
    split at h
    · cases h; rw [arrive_eq]; exact .inl rfl
    · cases h
  | tick =>
    simp only [takeMove] at h
    split at h
    · cases h; rw [tick_eq]; exact .inl rfl
    · cases h
  | writeReg i v => cases h; rw [writeRegister_eq]; exact .inl rfl
  | session dev image off last =>
    simp only [takeMove, startSession] at h
    split at h
    · cases h
    · split at h
      · cases h; exact .inl rfl
      · cases h
  | txResult | readReg | reset => cases h; exact .inl rfl
  | secondUser => cases h

/-- A POLL that ends a request ends it by a match, by a timeout with `cancel` 1, or by one at the limit (R165, R167). -/
theorem poll_ends (hwait : s.st = .wait) (h : (poll s).st = .idle) :
    (∃ f rest, s.rxq = f :: rest ∧ matchId f.id s.expId = true ∧ (poll s).rsp.status = .matched) ∨
    (s.q.timeout.toNat < s.elapsed ∧ s.cancel = true ∧ (poll s).rsp.status = .cancelled) ∨
    (s.q.timeout.toNat < s.elapsed ∧ s.cancel = false ∧ s.cfg.retryLimit ≠ 0 ∧
      s.cfg.retryLimit.toNat ≤ s.attempts.toNat ∧ (poll s).rsp.status = .exhausted) := by
  obtain ⟨es, rest, -, ⟨f, hq, hm, -, he⟩ | ⟨-, ⟨-, he⟩ | ⟨ht, hc, he⟩ | ⟨ht, hc, hl, he⟩ | ⟨-, -, -, he⟩⟩⟩ :=
    poll_cases s <;> rw [he] at h ⊢
  · exact .inl ⟨f, rest, hq, hm, rfl⟩
  · cases hwait.symm.trans h
  · exact .inr (.inl ⟨ht, hc, rfl⟩)
  · obtain ⟨hset, hreached⟩ := (limitHit_iff s).mp hl
    exact .inr (.inr ⟨ht, hc, hset, hreached, rfl⟩)
  · cases h

/-- A POLL whose wait is not over emits no TIMEOUT (R166). -/
theorem poll_hist_of_le (h : s.elapsed ≤ s.q.timeout.toNat) :
    ∃ es, (poll s).hist = s.hist ++ es ∧ ∀ n, .timeout n ∉ es := by
  obtain ⟨es, rest, -, ⟨f, -, -, -, he⟩ | ⟨hes, hends⟩⟩ := poll_cases s
  · exact ⟨_, by rw [he, takeMatch_hist, List.append_assoc], by simp⟩
  · obtain ⟨-, he⟩ | ⟨ht, -⟩ | ⟨ht, -⟩ | ⟨ht, -⟩ := hends
    · refine ⟨es, by rw [he], fun n => ?_⟩
      obtain rfl | ⟨f, rfl⟩ := hes <;> simp
    all_goals exact absurd ht (Nat.not_lt.mpr h)

end

/-- Settles O20: while busy the channel is closed to ACCEPT and, as a request is on it, to the client. -/
theorem commandIsHeldWhileBusy : Obligations.CommandIsHeldWhileBusy := by
  intro s r hbusy hreq
  refine ⟨?held, takeMove_block_refused (.inl hbusy), fun t h => ?kept⟩
  case held =>
    obtain ⟨hidle, -⟩ | ⟨-, he⟩ := runCommand_cases r.kind r.dev r.arg s
    · exact absurd hidle hbusy
    · rw [exec_command, he, presentedRequest_of_req hreq, holdRequest, ← hreq]
  case kept =>
    obtain ⟨m, moves, freeCtr, hm⟩ := takeMove_of_step h
    obtain hkept | hidle | hnone := req_of_takeMove hm
    · exact hkept.trans hreq
    · exact absurd hidle hbusy
    · cases hreq.symm.trans hnone

/-- A free move answers a next state whatever is drawn (log 2). -/
theorem takeFreeMove_next (drawn : Move) (s : State) : ∃ t, takeFreeMove drawn s = .next t := by
  unfold takeFreeMove
  split
  · exact ⟨_, rfl⟩
  · exact takeMove_ownMove s
  · exact takeMove_ownMove s

/-- Settles O42: with no move listed the step is a free move. -/
theorem neverStopsByItself : Obligations.NeverStopsByItself := by
  intro s h
  rw [step_of_no_moves h]
  exact takeFreeMove_next _ _

/-- Settles O49: in IDLE the block has no step but ACCEPT, and of the other agents only RESET writes the response. -/
theorem responseHoldsUntilAccept : Obligations.ResponseHoldsUntilAccept := by
  intro s t hidle h
  obtain ⟨moves, freeCtr, hm⟩ := moved_of_step h
  cases hm with
  | accept r => exact .inr ⟨rfl, .inl rfl⟩
  | reset => exact .inr ⟨rfl, .inr rfl⟩
  | drain hst | send hst | poll hst => cases hidle.symm.trans hst
  | arrive f => rw [arrive_eq]; exact .inl rfl
  | tick => rw [tick_eq]; exact .inl rfl
  | host => exact .inl rfl

/-- Settles O50: of the moves that leave a busy block idle one is a POLL that ends the request, the other RESET. -/
theorem busyEndsOnlyAsListed : Obligations.BusyEndsOnlyAsListed := by
  intro s t hbusy h hidle
  obtain ⟨moves, freeCtr, hm⟩ := moved_of_step h
  cases hm with
  | accept r hst => exact absurd hst hbusy
  | drain | send => cases hidle
  | poll hwait =>
    obtain ⟨f, rest, hq, hmatch, hstatus⟩ | hcancelled | hexhausted := poll_ends hwait hidle
    · exact .inl ⟨f, rest, hwait, hq, hmatch, hstatus⟩
    · exact .inr (.inl ⟨hwait, hcancelled⟩)
    · exact .inr (.inr (.inl ⟨hwait, hexhausted⟩))
  | reset => exact .inr (.inr (.inr rfl))
  | arrive f => rw [arrive_eq] at hidle; exact absurd hidle hbusy
  | tick => rw [tick_eq] at hidle; exact absurd hidle hbusy
  | host => exact absurd hidle hbusy

/-- Settles O52: a TIMEOUT says that the wait is over, and the invariant that it is over since the last poll only. -/
theorem timeoutLatencyBound : Obligations.TimeoutLatencyBound := by
  rintro s t hs hwait hmove ⟨es, hhist, htimeout⟩
  cases (takeMove_poll hwait).symm.trans hmove
  have hover : s.q.timeout.toNat < s.elapsed := by
    by_contra hle
    obtain ⟨es', hhist', hnone⟩ := poll_hist_of_le (Nat.not_lt.mp hle)
    rw [List.append_cancel_left (hhist.symm.trans hhist')] at htimeout
    exact hnone _ htimeout
  exact ⟨hover, (hs.timely hwait).trans (Nat.add_le_add_left (hs.polled hwait) _)⟩

end Sys2Proof.Machine

/-! SUPPORT. What is recorded or driven and not read (42_sender.md R175, R180): the history, and CANCEL before a
timeout. -/
namespace Sys2Proof.Machine

/-- An outcome with its next state, if it has one, mapped. -/
def mapNext (g : State → State) : Host.Outcome State Fault Refusal → Host.Outcome State Fault Refusal
  | .next t => .next (g t)
  | .fault e => .fault e
  | .refused e => .refused e

/-- A state with CANCEL at a level of choice. -/
def withCancel (c : Bool) (s : State) : State := { s with cancel := c }

/-- A state with a history of choice. -/
def withHistory (h : List Event) (s : State) : State := { s with hist := h }

theorem mapNext_id (a : Host.Outcome State Fault Refusal) : mapNext id a = a := by
  cases a <;> rfl

/-- Outcomes with equal images are both next states with equal images, or the same refusal: nothing faults (R230). -/
theorem next_or_refused_of_mapNext_eq {g : State → State} {a b : Host.Outcome State Fault Refusal}
    (h : mapNext g a = mapNext g b) :
    (∃ s t, a = .next s ∧ b = .next t ∧ g s = g t) ∨ ∃ e, a = .refused e ∧ b = .refused e := by
  cases a with
  | next s =>
    cases b with
    | next t => exact .inl ⟨s, t, rfl, rfl, Host.Outcome.next.inj h⟩
    | fault e => cases e
    | refused e => cases h
  | fault e => cases e
  | refused e =>
    cases b with
    | next t => cases h
    | fault e => cases e
    | refused e' => cases h; exact .inr ⟨e, rfl, rfl⟩

/-- The draw of a TxSend is read off the fixed result and the count of free values (R67). -/
theorem drawTxResult_congr {s s' : State} (hdraw : s'.txDraw = s.txDraw) (hctr : s'.freeCtr = s.freeCtr) :
    (drawTxResult s').1 = (drawTxResult s).1 ∧ (drawTxResult s').2.freeCtr = (drawTxResult s).2.freeCtr := by
  unfold drawTxResult
  rw [hdraw]
  cases s.txDraw with
  | none => exact ⟨congrArg Config.freeTxResult hctr, congrArg (· + 1) hctr⟩
  | some r => exact ⟨rfl, hctr⟩

/-- A block step answers alike in two states that agree on `st` and the channel, where its operation does (R161). -/
theorem mapNext_takeMove_block_congr {s s' : State} {f g : State → State} (b : BlockStep) (hst : s'.st = s.st)
    (hreq : s'.req = s.req) (haccept : ∀ r, f (acceptRequest r s') = g (acceptRequest r s))
    (hdrain : f (drain s') = g (drain s)) (hsend : f (send s') = g (send s))
    (hpoll : s.st = .wait → f (poll s') = g (poll s)) :
    mapNext f (takeMove (.block b) s') = mapNext g (takeMove (.block b) s) := by
  by_cases hphase : s.st = b.phase
  · have hphase' := hst.trans hphase
    cases b with
    | accept =>
      cases hr : s.req with
      | none => rw [takeMove_block_refused (.inr ⟨rfl, hreq.trans hr⟩), takeMove_block_refused (.inr ⟨rfl, hr⟩)]; rfl
      | some r =>
        rw [takeMove_accept_eq hphase' (hreq.trans hr), takeMove_accept_eq hphase hr]
        exact congrArg Host.Outcome.next (haccept r)
    | drain =>
      rw [takeMove_drain hphase', takeMove_drain hphase]
      exact congrArg Host.Outcome.next hdrain
    | send =>
      rw [takeMove_send hphase', takeMove_send hphase]
      exact congrArg Host.Outcome.next hsend
    | poll =>
      rw [takeMove_poll hphase', takeMove_poll hphase]
      exact congrArg Host.Outcome.next (hpoll hphase)
  · rw [takeMove_block_refused (.inl hphase), takeMove_block_refused (.inl (hst ▸ hphase))]
    rfl

section
variable {s : State} {c : Bool}

theorem send_withCancel : send (withCancel c s) = withCancel c (send s) := by
  obtain ⟨hresult, hctr⟩ := drawTxResult_congr (s := s) (s' := withCancel c s) rfl rfl
  rw [send_eq_of_draw, send_eq_of_draw s, hresult, hctr]
  rfl

/-- A POLL that finds a match, or whose wait is not over, does not read `cancel` (R165, R180). -/
theorem poll_withCancel
    (h : s.elapsed ≤ s.q.timeout.toNat ∨ ∃ f rest, s.rxq = f :: rest ∧ matchId f.id s.expId = true) :
    poll (withCancel c s) = withCancel c (poll s) := by
  by_cases hmatch : ∃ f rest, s.rxq = f :: rest ∧ matchId f.id s.expId = true
  · obtain ⟨f, rest, hq, hm⟩ := hmatch
    rw [poll_of_match (s := withCancel c s) hq hm, poll_of_match hq hm]
    rfl
  · have hle := h.resolve_right hmatch
    obtain ⟨es, rest, hno⟩ := (head_matches_or_not s).resolve_left hmatch
    rw [poll_without_match (s := withCancel c s) hno, poll_without_match hno, afterNoMatch_of_le (by exact hle),
      afterNoMatch_of_le (by exact hle)]
    rfl

end

/-- Settles O56: where no timeout is decided, setting `cancel` before the step or after it is the same. -/
theorem cancelIsReadAtATimeoutOnly : Obligations.CancelIsReadAtATimeoutOnly := by
  intro s b c h
  have hcommutes := mapNext_takeMove_block_congr (s' := withCancel c s) (s := s) (f := id) (g := withCancel c) b rfl rfl
    (fun _ => rfl) rfl send_withCancel fun hwait => poll_withCancel (h hwait)
  rw [mapNext_id] at hcommutes
  exact ⟨fun t ht => hcommutes.trans (by rw [ht]; rfl), fun e he => hcommutes.trans (by rw [he]; rfl)⟩

/-- Agreement up to the history is equality of the outcomes with the history forgotten. -/
theorem agreeUpToHistory_of_mapNext_eq {a b : Host.Outcome State Fault Refusal}
    (h : mapNext (withHistory []) a = mapNext (withHistory []) b) : agreeUpToHistory a b := by
  obtain ⟨s, t, rfl, rfl, hst⟩ | ⟨e, rfl, rfl⟩ := next_or_refused_of_mapNext_eq h
  · exact hst
  · rfl

section
variable (h : List Event) (s : State)

theorem send_withHistory : withHistory [] (send (withHistory h s)) = withHistory [] (send s) := by
  obtain ⟨-, hctr⟩ := drawTxResult_congr (s := s) (s' := withHistory h s) rfl rfl
  rw [send_eq_of_draw, send_eq_of_draw s, hctr]
  rfl

theorem afterNoMatch_withHistory :
    withHistory [] (afterNoMatch (withHistory h s)) = withHistory [] (afterNoMatch s) := by
  rw [afterNoMatch_eq, afterNoMatch_eq s]
  simp only [apply_ite (withHistory [])]
  rfl

theorem poll_withHistory : withHistory [] (poll (withHistory h s)) = withHistory [] (poll s) := by
  obtain ⟨f, rest, hq, hm⟩ | ⟨es, rest, hno⟩ := head_matches_or_not s
  · rw [poll_of_match (s := withHistory h s) hq hm, poll_of_match hq hm]
    rfl
  · rw [poll_without_match (s := withHistory h s) hno, poll_without_match hno]
    exact afterNoMatch_withHistory _ { s with sincePoll := 0, rxq := rest, hist := s.hist ++ es }

theorem arrive_withHistory (f : Frame) :
    withHistory [] (arrive f (withHistory h s)) = withHistory [] (arrive f s) := by
  simp only [arrive, apply_ite (withHistory [])]
  rfl

theorem clientRead_withHistory (kind : Kind) (client : Client) :
    mapNext (withHistory []) (clientRead kind client (withHistory h s)) =
      mapNext (withHistory []) (clientRead kind client s) := by
  simp only [clientRead, apply_ite (mapNext (withHistory []))]
  rfl

theorem clientAsk_withHistory (kind : Kind) (client : Client) :
    mapNext (withHistory []) (clientAsk kind client (withHistory h s)) =
      mapNext (withHistory []) (clientAsk kind client s) := by
  unfold clientAsk
  cases clientRequest kind client with
  | none => rfl
  | some r =>
    simp only [apply_ite (mapNext (withHistory []))]
    rfl

/-- The reference client does not read the history. -/
theorem clientStep_withHistory :
    mapNext (withHistory []) (clientStep (withHistory h s)) = mapNext (withHistory []) (clientStep s) := by
  have hclient : (withHistory h s).client = s.client := rfl
  unfold clientStep
  rw [hclient]
  cases s.client with
  | none => rfl
  | some client =>
    dsimp only
    cases sessionKind client with
    | none => cases client.session <;> rfl
    | some kind =>
      cases client.waiting
      · exact clientAsk_withHistory h s kind client
      · exact clientRead_withHistory h s kind client

theorem presentMove_withHistory (raw : RawRequest) :
    mapNext (withHistory []) (presentMove raw (withHistory h s)) = mapNext (withHistory []) (presentMove raw s) := by
  unfold presentMove
  cases requestOfRaw raw with
  | none => rfl
  | some r =>
    simp only [apply_ite (mapNext (withHistory []))]
    rfl

/-- No move reads the history. -/
theorem takeMove_withHistory (m : Move) :
    mapNext (withHistory []) (takeMove m (withHistory h s)) = mapNext (withHistory []) (takeMove m s) := by
  cases m with
  | block b =>
    exact mapNext_takeMove_block_congr b rfl rfl (fun _ => rfl) rfl (send_withHistory h s)
      fun _ => poll_withHistory h s
  | client => exact clientStep_withHistory h s
  | present raw => exact presentMove_withHistory h s raw
  | arrive raw =>
    simp only [takeMove]
    cases frameOfRaw raw with
    | none => rfl
    | some f => exact congrArg Host.Outcome.next (arrive_withHistory h s f)
  | tick =>
    simp only [takeMove, tick_eq, apply_ite (mapNext (withHistory []))]
    rfl
  | writeReg i v => simp only [takeMove, writeRegister_eq]; rfl
  | session dev image off last =>
    simp only [takeMove, startSession, apply_ite (mapNext (withHistory []))]
    rfl
  | txResult | readReg | reset | secondUser => rfl

theorem takeFreeMove_withHistory (drawn : Move) :
    mapNext (withHistory []) (takeFreeMove drawn (withHistory h s)) =
      mapNext (withHistory []) (takeFreeMove drawn s) := by
  unfold takeFreeMove
  obtain ⟨t, u, ht, hu, htu⟩ | ⟨e, ht, hu⟩ := next_or_refused_of_mapNext_eq (takeMove_withHistory h s drawn)
  · rw [ht, hu]
    exact congrArg Host.Outcome.next htu
  · rw [ht, hu]
    exact takeMove_withHistory h s (ownMove s)

/-- No step reads the history (R36). -/
theorem step_withHistory : mapNext (withHistory []) (step (withHistory h s)) = mapNext (withHistory []) (step s) := by
  cases hmoves : s.moves with
  | nil =>
    rw [step_of_no_moves hmoves, step_of_no_moves (s := withHistory h s) hmoves]
    exact takeFreeMove_withHistory h { s with freeCtr := s.freeCtr + 1, done := false } _
  | cons m rest =>
    rw [step_of_moves hmoves, step_of_moves (s := withHistory h s) hmoves]
    exact takeMove_withHistory h { s with moves := rest, done := false } m

end

/-- States that differ at most in the history run on so, for any number of steps. -/
theorem run_withHistory (n : Nat) {s t : State} (h : withHistory [] s = withHistory [] t) :
    mapNext (withHistory []) (Host.Core.run core n s) = mapNext (withHistory []) (Host.Core.run core n t) := by
  induction n generalizing s t with
  | zero => exact congrArg Host.Outcome.next h
  | succ n ih =>
    have hstep : mapNext (withHistory []) (step s) = mapNext (withHistory []) (step t) := by
      rw [← step_withHistory [] s, ← step_withHistory [] t]
      exact congrArg (fun u => mapNext (withHistory []) (step u)) h
    obtain ⟨s', t', hs, ht, hst⟩ | ⟨e, hs, ht⟩ := next_or_refused_of_mapNext_eq hstep
    · rw [run_succ (M := core) hs, run_succ (M := core) ht]
      exact ih hst
    · rw [run_refused hs, run_refused ht]

/-- Settles O55: the two SENDs differ in the recorded result only, and no later step reads the history. -/
theorem sendResultIsNeverRead : Obligations.SendResultIsNeverRead := by
  refine ⟨fun s r => send_hist _, fun s n _ => agreeUpToHistory_of_mapNext_eq (run_withHistory n ?_)⟩
  rw [send_eq_of_draw, send_eq_of_draw]
  rfl

end Sys2Proof.Machine

/-! SUPPORT. A wait on a silent bus, polled after every tick (42_sender.md R166, R167, R170). -/
namespace Sys2Proof.Machine

/-- `k` ticks, each followed by a POLL. -/
def tickPolls (k : Nat) : List Move := (List.replicate k [Move.tick, Move.block .poll]).flatten

theorem tickPolls_succ (k : Nat) : tickPolls (k + 1) = tickPolls k ++ [.tick, .block .poll] := by
  simp [tickPolls, List.replicate_succ']

/-- The state `k` ticks later in a wait that goes on, polled after the last of them, with this strobe and schedule. -/
def waited (k : Nat) (done : Bool) (ms : List Move) (s : State) : State :=
  { s with elapsed := s.elapsed + k, sincePoll := 0, hist := s.hist ++ List.replicate k .tick
           done := done, moves := ms }

theorem waited_zero {s : State} (h : s.sincePoll = 0) : waited 0 s.done s.moves s = s := by
  cases s
  cases h
  simp [waited]

/-- Waiting goes on where it stopped. -/
theorem waited_waited (j k : Nat) (d d' : Bool) (ms ms' : List Move) (s : State) :
    waited k d' ms' (waited j d ms s) = waited (j + k) d' ms' s := by
  simp only [waited, Nat.add_assoc, List.append_assoc, List.replicate_append_replicate]

section
variable {s : State} {ms : List Move} {n : Nat}

/-- One tick on a silent bus, and the POLL after it, are the timeout test one tick later (R165, R170). -/
theorem run_tick_poll (hwait : s.st = .wait) (hpolled : s.sincePoll = 0) (hinterval : 1 ≤ s.cfg.pollInterval)
    (hsilent : s.rxq = []) (hmoves : s.moves = .tick :: .block .poll :: ms) :
    Host.Core.run core (n + 2) s = Host.Core.run core n (afterNoMatch (waited 1 false ms s)) := by
  set listed : State := { s with moves := .block .poll :: ms, done := false }
  set ticked : State :=
    { listed with elapsed := s.elapsed + 1, sincePoll := s.sincePoll + 1, hist := s.hist ++ [.tick] }
  set due : State := { ticked with moves := ms, done := false }
  have htick : takeMove .tick listed = .next ticked := by
    obtain ⟨-, hcounts, -⟩ := tickCountsInWaitOnly listed
    exact hcounts hwait (by change s.sincePoll < s.cfg.pollInterval; omega)
  have hpoll : poll due = afterNoMatch (waited 1 false ms s) := poll_nil (s := due) hsilent
  rw [run_of_moves hmoves htick, run_of_moves (s := ticked) rfl (takeMove_poll (s := due) hwait), hpoll]

/-- Before the timeout a silent wait goes on, for any number of ticks (R166, R183). -/
theorem run_silent_wait (k : Nat) (hwait : s.st = .wait) (hpolled : s.sincePoll = 0)
    (hinterval : 1 ≤ s.cfg.pollInterval) (hsilent : s.rxq = []) (htime : s.elapsed + k ≤ s.q.timeout.toNat)
    (hmoves : s.moves = tickPolls k ++ ms) :
    ∃ d, Host.Core.run core (n + 2 * k) s = Host.Core.run core n (waited k d ms s) := by
  induction k generalizing ms n with
  | zero =>
    obtain rfl : s.moves = ms := hmoves
    exact ⟨s.done, congrArg (Host.Core.run core n) (waited_zero hpolled).symm⟩
  | succ k ih =>
    rw [tickPolls_succ, List.append_assoc] at hmoves
    obtain ⟨d, hrun⟩ := ih (n := n + 2) (by omega) hmoves
    have hlast :=
      run_tick_poll (n := n) (s := waited k d (.tick :: .block .poll :: ms) s) hwait rfl hinterval hsilent rfl
    rw [waited_waited, afterNoMatch_of_le (by exact htime)] at hlast
    exact ⟨false, (congrArg (Host.Core.run core · s) (by omega)).trans (hrun.trans hlast)⟩

end

/-- Settles O53: `q_timeout` ticks leave the wait going, and the POLL after one more finds it over, with nothing to end
the request. -/
theorem silentWaitTimesOut : Obligations.SilentWaitTimesOut := by
  intro s hwait hstart hpolled hsilent hcancel hlimit hinterval hmoves
  generalize hk : s.q.timeout.toNat = k at hmoves ⊢
  have hlisted : s.moves = tickPolls k ++ [.tick, .block .poll] := hmoves.trans (tickPolls_succ k)
  have hwaits (n : Nat) := run_silent_wait (n := n) k hwait hpolled hinterval hsilent (by omega) hlisted
  constructor
  · obtain ⟨d, hrun⟩ := hwaits 0
    rw [Nat.zero_add] at hrun
    exact ⟨_, hrun, hwait, by simp [waited, hstart]⟩
  · obtain ⟨d, hrun⟩ := hwaits 2
    have hlast := run_tick_poll (n := 0) (s := waited k d [.tick, .block .poll] s) hwait rfl hinterval hsilent rfl
    rw [waited_waited, afterNoMatch_eq, if_neg, if_neg, if_neg] at hlast
    · refine ⟨_, (congrArg (Host.Core.run core · s) (by omega)).trans (hrun.trans hlast), rfl, rfl, ?_, rfl, rfl⟩
      simp [waited, hstart]
    · exact fun ⟨hset, _⟩ => hset hlimit
    · exact Bool.eq_false_iff.mp hcancel
    · change ¬ s.elapsed + (k + 1) ≤ s.q.timeout.toNat
      omega

end Sys2Proof.Machine

/-! SUPPORT. The reference client (45_host_interface.md R207 to R218): what it asks for, and what it makes of a
response. -/
namespace Sys2Proof.Machine

/-- TRANSFORM moves byte i of a half to index 3 - i of the same half (R213). -/
theorem get_transform (c : Bytes8) {j i : Nat} (hj : j < 2) (hi : i < 4) :
    (transform c).get (4 * j + i) = c.get (4 * j + 3 - i) := by
  interval_cases j <;> interval_cases i <;> rfl

/-- The bytes of a half, read as a little-endian word, stand in the result from the most significant one (R213). -/
theorem get_transform_eq_extractLsb'_packWord (c : Bytes8) {j i : Nat} (hj : j < 2) (hi : i < 4) :
    (transform c).get (4 * j + i) =
      (packWord (c.get (4 * j)) (c.get (4 * j + 1)) (c.get (4 * j + 2)) (c.get (4 * j + 3))).extractLsb'
        (8 * (3 - i)) 8 :=
  calc (transform c).get (4 * j + i)
      = c.get (4 * j + 3 - i) := get_transform c hj hi
    _ = [c.get (4 * j), c.get (4 * j + 1), c.get (4 * j + 2), c.get (4 * j + 3)].getD (3 - i) 0 := by
      interval_cases i <;> rfl
    _ = _ := (extractLsb'_packWord _ _ _ _ (by omega)).symm

/-- Settles O58: a half is packed as a word in one byte order and read in the other. -/
theorem transformReversesTheHalves : Obligations.TransformReversesTheHalves :=
  ⟨fun c _ _ => get_transform c, fun _ => rfl, fun c _ _ => get_transform_eq_extractLsb'_packWord c, rfl⟩

section
variable {kind : Kind} {r : Response} {c : Client}

/-- A completed request is read by its kind (R209). -/
theorem afterResponse_of_matched (h : r.status = .matched) :
    afterResponse kind r c = afterMatched kind r { c with waiting := false } := by
  rw [afterResponse, h]

/-- CANCELLED and EXHAUSTED end the session, whatever was asked (D44). -/
theorem afterResponse_of_ended (h : r.status = .cancelled ∨ r.status = .exhausted) :
    afterResponse kind r c = { c with waiting := false, session := .aborted .cancelled } := by
  obtain h | h := h <;> rw [afterResponse, h]

/-- A selected page is noted (R214). -/
theorem afterMatched_pageselect_of_ok (h : r.ok = true) :
    afterMatched .pageselect r c = { c with pageSelected := true } :=
  if_pos h

theorem afterMatched_pageselect_of_not_ok (h : r.ok = false) :
    afterMatched .pageselect r c = { c with session := .aborted .pageselRejected } :=
  if_neg (Bool.eq_false_iff.mp h)

/-- An erased page is the current one (R214). -/
theorem afterMatched_erase_of_ok (h : r.ok = true) :
    afterMatched .erase r c = { c with currentPage := targetPage c, pageSelected := false } :=
  if_pos h

theorem afterMatched_erase_of_not_ok (h : r.ok = false) :
    afterMatched .erase r c = { c with session := .aborted .eraseRejected } :=
  if_neg (Bool.eq_false_iff.mp h)

/-- A right echo of 8 bytes moves the cursor on (R216). -/
theorem afterMatched_write_of_echo (hok : r.ok = true) (hdlc : r.dlc = 8) (hdata : r.data = writePayload c) :
    afterMatched .write r c = { c with position := c.position + 8 } :=
  if_pos (by rw [hok, decide_eq_true hdlc, decide_eq_true hdata]; rfl)

/-- Each way an echo is wrong aborts with the failing address (R216). -/
theorem afterMatched_write_of_mismatch (h : r.ok = false ∨ r.dlc ≠ 8 ∨ r.data ≠ writePayload c) :
    afterMatched .write r c = { c with session := .aborted (.writeMismatch (failingAddress c)) } := by
  refine if_neg fun hecho => ?_
  simp only [Bool.and_eq_true, decide_eq_true_eq] at hecho
  obtain ⟨⟨hok, hdlc⟩, hdata⟩ := hecho
  obtain hbad | hbad | hbad := h
  · exact absurd (hok.symm.trans hbad) (by decide)
  · exact hbad hdlc
  · exact hbad hdata

variable {s : State}

/-- In a session state with a request the client reads its response, or asks where it does not wait for one (R206). -/
theorem takeMove_client (hclient : s.client = some c) (hkind : sessionKind c = some kind) :
    takeMove .client s = if c.waiting then clientRead kind c s else clientAsk kind c s := by
  simp only [takeMove, clientStep, hclient, hkind]

theorem clientRead_of_ready (hidle : s.st = .idle) (hreq : s.req = none) :
    clientRead kind c s = .next { s with client := some (afterResponse kind s.rsp c) } :=
  if_pos ⟨hidle, hreq⟩

theorem clientAsk_of_ready {q : Request} (hq : clientRequest kind c = some q) (hidle : s.st = .idle)
    (hreq : s.req = none) :
    clientAsk kind c s = .next { s with req := some q, client := some { c with waiting := true } } := by
  rw [clientAsk, hq]
  exact if_pos ⟨hidle, hreq⟩

end

/-- Settles O59: a matched reply is read by its kind and its error bit, any other end aborts, and the client's move reads
the response registers of a ready block. -/
theorem clientReadsTheResponse : Obligations.ClientReadsTheResponse := by
  refine ⟨fun c r hmatched => ?matched, fun c r k hended => ?ended, fun s c k hclient hkind hwaits hidle hreq => ?move⟩
  case matched =>
    simp only [afterResponse_of_matched hmatched]
    refine ⟨rfl, rfl, fun herr => ⟨?_, ?_⟩, fun hok => ⟨?_, ?_⟩, rfl, rfl, fun hok hdlc hdata => ?_, fun hbad => ?_⟩
    · rw [afterMatched_pageselect_of_not_ok herr]
    · rw [afterMatched_erase_of_not_ok herr]
    · rw [afterMatched_pageselect_of_ok hok]
    · rw [afterMatched_erase_of_ok hok]; rfl
    · rw [afterMatched_write_of_echo (c := { c with waiting := false }) hok hdlc hdata]
      exact ⟨rfl, rfl⟩
    · rw [afterMatched_write_of_mismatch (c := { c with waiting := false }) hbad]; rfl
  case ended => rw [afterResponse_of_ended hended]
  case move => rw [takeMove_client hclient hkind, if_pos hwaits, clientRead_of_ready hidle hreq]

section
variable {c : Client}

/-- The target page in the integers, where the current page may be -1 (R211, R214). -/
theorem cast_targetPage (c : Client) : (targetPage c : Int) = c.position / 0x800 + c.pageOffset := rfl

theorem programKind_of_end (h : c.image.length ≤ c.position) : programKind c = .lock :=
  if_neg (Nat.not_lt.mpr h)

theorem programKind_of_new_page (h : c.position < c.image.length) (hpage : (targetPage c : Int) ≠ c.currentPage) :
    programKind c = if c.pageSelected then .erase else .pageselect :=
  (if_pos h).trans (if_pos hpage)

theorem programKind_of_current_page (h : c.position < c.image.length) (hpage : (targetPage c : Int) = c.currentPage) :
    programKind c = .write :=
  (if_pos h).trans (if_neg (not_not_intro hpage))

/-- The Write argument is the chunk index of the in-page offset (R215). -/
theorem clientArg_write (c : Client) : clientArg .write c = (c.position % 0x800) >>> 3 :=
  (Nat.shiftRight_eq_div_pow _ 3).symm

/-- A chunk holds the image's bytes, and 0xFF from the end of the image on (R212). -/
theorem get_chunkAt (image : List Byte) (position : Nat) {i : Nat} (hi : i < 8) :
    (chunkAt image position).get i =
      if position + i < image.length then image.getD (position + i) 0 else 0xFF := by
  rw [chunkAt, get_ofIndex _ hi]
  split
  next hin => rw [List.getD_eq_getElem _ _ hin, List.getD_eq_getElem _ _ hin]
  next hout => exact List.getD_eq_default _ _ (Nat.le_of_not_lt hout)

/-- Every kind but WRITE carries eight 0x00 bytes (R207). -/
theorem clientData_of_ne_write {k : Kind} (h : k ≠ .write) (c : Client) : clientData k c = Bytes8.zero := by
  cases k with
  | write => exact absurd rfl h
  | ping | pageselect | lock | unlock | erase | read | finish => rfl

/-- The client's request is in range where its argument is (R105, R214). -/
theorem clientRequest_of_le {k : Kind} (harg : clientArg k c ≤ 0x7FFF) :
    clientRequest k c = some ⟨k, c.dev, BitVec.ofNat 15 (clientArg k c), clientData k c, none⟩ := by
  have hkind : k.code.toNat ≤ 7 := Nat.le_of_lt_succ k.code.isLt
  have hdev : c.dev.toNat ≤ 255 := Nat.le_of_lt_succ c.dev.isLt
  have hwf : RawRequest.wellFormed ⟨k.code.toNat, c.dev.toNat, clientArg k c, clientData k c, none⟩ = true := by
    simp [RawRequest.wellFormed, hkind, hdev, harg]
  rw [clientRequest, requestOfRaw, if_pos hwf]
  simp only [BitVec.ofNat_toNat, BitVec.setWidth_eq, Kind.ofCode_code, Option.map_none]

end

/-- Settles O60: the programmer's kind is a case split on the cursor, and a request in range is presented as it is to a
ready block. -/
theorem clientProgramsThePages : Obligations.ClientProgramsThePages := by
  refine ⟨fun c => ⟨?programming, ?idle, ?pinged, ?locked, programKind_of_end, fun h hpage => ?new_page,
      fun h hpage => ?current_page, rfl, rfl, clientArg_write c, rfl, fun i => get_chunkAt c.image c.position,
      fun k hk => clientData_of_ne_write hk c⟩,
    fun s c k hclient hkind hasks hidle hreq harg => ?move⟩
  case programming | idle | pinged | locked =>
    intro h
    rw [sessionKind, h]
  case new_page => exact programKind_of_new_page h (cast_targetPage c ▸ hpage)
  case current_page => exact programKind_of_current_page h ((cast_targetPage c).trans hpage)
  case move =>
    rw [takeMove_client hclient hkind, if_neg (Bool.eq_false_iff.mp hasks),
      clientAsk_of_ready (clientRequest_of_le harg) hidle hreq]

end Sys2Proof.Machine

/-! SUPPORT. The boundary (R61, R105, R237): which requests and frames in naturals are taken, and as what. -/
namespace Sys2Proof

/-- A request in naturals is well formed where each field, and the timeout where one is given, is in range (R105). -/
theorem RawRequest.wellFormed_iff (r : RawRequest) : r.wellFormed = true ↔
    r.kind ≤ 7 ∧ r.dev ≤ 255 ∧ r.arg ≤ 0x7FFF ∧ ∀ t, r.timeout = some t → t ≤ 0xFFFFFFFF := by
  have htimeout : r.timeout.getD 0 ≤ 0xFFFFFFFF ↔ ∀ t, r.timeout = some t → t ≤ 0xFFFFFFFF := by
    cases r.timeout <;> simp
  simp only [RawRequest.wellFormed, Bool.and_eq_true, decide_eq_true_eq, htimeout, and_assoc]

/-- A frame in naturals is well formed where its ID has 29 bits and its length is that of its bytes, at most 8 (R61). -/
theorem RawFrame.wellFormed_iff (f : RawFrame) :
    f.wellFormed = true ↔ f.id < 2 ^ 29 ∧ f.dlc ≤ 8 ∧ f.data.length = f.dlc := by
  simp only [RawFrame.wellFormed, Bool.and_eq_true, decide_eq_true_eq, and_assoc]

end Sys2Proof

namespace Sys2Proof.Machine

/-- A natural number that fits the width is not wrapped (R105). -/
theorem toNat_ofNat_of_lt {w n : Nat} (h : n < 2 ^ w) : (BitVec.ofNat w n).toNat = n :=
  (BitVec.toNat_ofNat n w).trans (Nat.mod_eq_of_lt h)

/-- A timeout of 32 bits is not wrapped (R105). -/
theorem map_toNat_map_ofNat {t : Option Nat} (h : ∀ n, t = some n → n ≤ 0xFFFFFFFF) :
    (t.map (BitVec.ofNat 32)).map BitVec.toNat = t := by
  cases t with
  | none => rfl
  | some n => exact congrArg some (toNat_ofNat_of_lt (Nat.lt_succ_of_le (h n rfl)))

section
variable {r : RawRequest} {q : Request} {s : State}

/-- A request taken from naturals has exactly their values: no field is wrapped (R105). -/
theorem fields_of_requestOfRaw (h : requestOfRaw r = some q) :
    q.kind.code.toNat = r.kind ∧ q.dev.toNat = r.dev ∧ q.arg.toNat = r.arg ∧ q.data = r.data ∧
      q.timeout.map BitVec.toNat = r.timeout := by
  obtain ⟨hwf, hq⟩ := Option.ite_none_right_eq_some.mp h
  obtain ⟨hkind, hdev, harg, htimeout⟩ := r.wellFormed_iff.mp hwf
  cases hq
  refine ⟨?kind, toNat_ofNat_of_lt (Nat.lt_succ_of_le hdev), toNat_ofNat_of_lt (Nat.lt_succ_of_le harg),
    rfl, map_toNat_map_ofNat htimeout⟩
  case kind => rw [Kind.code_ofCode, toNat_ofNat_of_lt (Nat.lt_succ_of_le hkind)]

theorem takeMove_present_of_not_wellFormed (h : ¬ r.wellFormed = true) (s : State) :
    takeMove (.present r) s = .refused .outOfRange := by
  simp only [takeMove, presentMove, requestOfRaw, if_neg h]

/-- The move `present` puts the request on a free REQ and changes nothing else (R48, R200). -/
theorem takeMove_present (h : requestOfRaw r = some q) (hreq : s.req = none) (hsession : sessionRunning s = false) :
    takeMove (.present r) s = .next { s with req := some q } := by
  simp only [takeMove, presentMove, h]
  exact if_pos ⟨hreq, hsession⟩

theorem takeMove_arrive_of_not_wellFormed {f : RawFrame} (h : ¬ f.wellFormed = true) (s : State) :
    takeMove (.arrive f) s = .refused .illFormedFrame := by
  simp only [takeMove, frameOfRaw, if_neg h]

end

/-- Settles O16: each refusal is one failed bound of well-formedness, and a well-formed request is taken as it is. -/
theorem boundaryRefusals : Obligations.BoundaryRefusals := by
  refine ⟨fun r s hbad => takeMove_present_of_not_wellFormed (fun hwf => ?request) s,
    fun r hkind hdev harg htimeout => ?taken,
    fun f s hbad => takeMove_arrive_of_not_wellFormed (fun hwf => ?frame) s, fun op s => rfl⟩
  case request =>
    obtain ⟨hkind, hdev, harg, htimeout⟩ := r.wellFormed_iff.mp hwf
    obtain hbad | hbad | hbad | ⟨t, ht, hbad⟩ := hbad
    · exact Nat.not_le_of_lt hbad hkind
    · exact Nat.not_le_of_lt hbad hdev
    · exact Nat.not_le_of_lt hbad harg
    · exact Nat.not_le_of_lt hbad (htimeout t ht)
  case taken =>
    obtain ⟨q, hq⟩ : ∃ q, requestOfRaw r = some q :=
      ⟨_, if_pos (r.wellFormed_iff.mpr ⟨hkind, hdev, harg, htimeout⟩)⟩
    obtain ⟨hqkind, hqdev, hqarg, hqdata, hqtimeout⟩ := fields_of_requestOfRaw hq
    exact ⟨q, hq, hqkind, hqdev, hqarg, hqdata, hqtimeout, fun s => takeMove_present hq⟩
  case frame =>
    obtain ⟨hid, hdlc, hlength⟩ := f.wellFormed_iff.mp hwf
    obtain hbad | hbad | hbad := hbad
    · exact Nat.not_le_of_lt hid hbad
    · exact Nat.not_le_of_lt hbad hdlc
    · exact hbad hlength

end Sys2Proof.Machine

/-! SUPPORT. RESET (60_exceptions.md R260, R262): what the register view reads after it, and the state after reset as
its result. -/
namespace Sys2Proof.Machine

/-- The state after reset is what RESET makes of it, but for the RESET event (R53). -/
theorem reset_stateReset : ({ reset State.reset with hist := [] } : State) = State.reset := rfl

/-- Whatever the state was, after RESET every register reads its reset value: the registers show no field that RESET
keeps (R260, R262). -/
theorem readRegister_reset (i : Nat) (s : State) : readRegister i (reset s) = readRegister i State.reset := rfl

/-- The reset column of the register table (R41): the IDs are those of the latched PING of device 0. -/
theorem readRegister_stateReset : (List.range 10).map (fun i => readRegister i State.reset) =
    [0x00000000, 0x00000000, 0x00000000, 0x00000000, 0x00000000, 0x00000000, 0x10000000, 0x18000000, 0x00000000, 0x00000000] := by
  decide

/-- Settles O34: RESET writes its table in every state, so the registers read after it as they do in the state after
reset. -/
theorem resetWritesTheTable : Obligations.ResetWritesTheTable := by
  refine ⟨fun s => ⟨reset s, rfl, reset_st s, reset_q s, reset_attempts s, reset_elapsed s, reset_sincePoll s,
    reset_rsp s, reset_cancel s, reset_hist s, reset_rxq s, reset_cfg s, ?status, ?cmdId, ?expId,
    decide_eq_true (reset_st s)⟩, reset_stateReset, readRegister_stateReset⟩
  case status | cmdId | expId =>
    rw [readRegister_reset]
    decide

end Sys2Proof.Machine

/-! SUPPORT. The table word of a row (30_encoding.md R113), and what the rows leave unchanged (42_sender.md §2): a command
touches the block in IDLE only, a reply row is a POLL. -/
namespace Sys2Proof

/-- The table word of a row is its ID, which decodes to the row (R98, R106). -/
theorem decodeTableWord_encode (i : Instr) : decodeTableWord 32 (encode i).toNat = some i := by
  have hw : (encode i).toNat < 2 ^ 29 := (encode i).isLt
  rw [decodeTableWord, Nat.mod_eq_of_lt (by omega), decodeNat, if_pos hw, BitVec.ofNat_toNat, BitVec.setWidth_eq,
    decodeOfEncode]

/-- Settles O4: five of the words are the encoder's, and 0x005 has BASE at 0. -/
theorem wordsOfTheSpecDecode : Obligations.WordsOfTheSpecDecode :=
  ⟨decodeTableWord_encode (.pageselect 5 2), decodeTableWord_encode (.write 5 0xFF), decodeTableWord_encode (.writeR 5 1),
    decodeTableWord_encode (.unlockE 5 0), decodeTableWord_encode (.finish 0xFF 0x7FFF), by decide⟩

end Sys2Proof

namespace Sys2Proof.Machine

/-- With nothing on the channel a command stands for the request with R110's defaults. -/
theorem presentedRequest_of_no_req {s : State} (h : s.req = none) (kind : Kind) (dev : Dev) (arg : Arg) :
    presentedRequest kind dev arg s = ⟨kind, dev, arg, Bytes8.fill 0, none⟩ := by
  rw [presentedRequest, h, Bytes8.zero]

/-- In IDLE a command row is the ACCEPT of the request it stands for (R140, R162). -/
theorem exec_command_of_idle {s : State} (h : s.st = .idle) (kind : Kind) (dev : Dev) (arg : Arg) :
    exec (Instr.command kind dev arg) s = .next (acceptRequest (presentedRequest kind dev arg s) s) := by
  rw [exec_command, runCommand, h]

/-- Settles O19: both sides accept the same request, and ACCEPT takes what was on the channel off it. -/
theorem commandWithoutRequestTakesDefaults : Obligations.CommandWithoutRequestTakesDefaults := by
  intro s k d a hidle hnone
  rw [exec_command_of_idle hidle, presentedRequest_of_no_req hnone]
  exact (exec_requestInstr (s := { s with req := some ⟨k, d, a, Bytes8.fill 0, none⟩ }) hidle rfl).symm

/-- Settles O21: a command is the ACCEPT of a request in IDLE, and while busy writes the channel alone. -/
theorem commandFrame : Obligations.CommandFrame := by
  intro s t k d a h
  rw [exec_command] at h
  obtain ⟨hidle, he⟩ | ⟨-, he⟩ := runCommand_cases k d a s <;> cases he.symm.trans h
  · exact ⟨rfl, rfl, rfl, rfl, rfl, rfl, rfl, rfl, ⟨_, rfl⟩, fun hbusy => absurd hidle hbusy⟩
  · exact ⟨rfl, rfl, rfl, rfl, rfl, rfl, rfl, rfl, ⟨[], (List.append_nil _).symm⟩,
      fun _ => ⟨rfl, rfl, rfl, rfl, rfl, rfl, rfl⟩⟩

/-- A POLL takes the head of the FIFO and clears `since_poll`; else it writes `st`, the response, the strobe and the
history only (R165 to R168). -/
theorem poll_eq (s : State) :
    poll s = { s with st := (poll s).st, sincePoll := 0, rsp := (poll s).rsp, done := (poll s).done
                      hist := (poll s).hist, rxq := s.rxq.tail } := by
  obtain ⟨es, rest, rfl, ⟨f, -, -, -, he⟩ | ⟨-, ⟨-, he⟩ | ⟨-, -, he⟩ | ⟨-, -, -, he⟩ | ⟨-, -, -, he⟩⟩⟩ :=
    poll_cases s <;> rw [he] <;> rfl

/-- A POLL that does not end the request writes neither the response nor the strobe (R165, R167). -/
theorem poll_keeps_rsp_done {s : State} (h : (poll s).st ≠ .idle) :
    (poll s).rsp = s.rsp ∧ (poll s).done = s.done := by
  obtain ⟨es, rest, -, ⟨f, -, -, -, he⟩ | ⟨-, ⟨-, he⟩ | ⟨-, -, he⟩ | ⟨-, -, -, he⟩ | ⟨-, -, -, he⟩⟩⟩ :=
    poll_cases s <;> rw [he] at h ⊢
  · exact absurd rfl h
  · exact ⟨rfl, rfl⟩
  · exact absurd rfl h
  · exact absurd rfl h
  · exact ⟨rfl, rfl⟩

/-- Polling a frame, whatever the head of the FIFO, is POLL with that frame at the head. -/
theorem pollFrame_eq_poll (f : Frame) (s : State) : pollFrame f s = poll { s with rxq := f :: s.rxq.tail } := rfl

/-- Settles O26: in WAIT a reply row is a POLL with its frame at the head of the FIFO, elsewhere it changes nothing. -/
theorem replyFrame : Obligations.ReplyFrame := by
  intro s t i hrole h
  rw [exec_reply hrole] at h
  obtain ⟨hwait, he⟩ | ⟨hwait, he⟩ := runReply_cases (encode i) s <;> cases he.symm.trans h
  · obtain ⟨-, -, es, hhist⟩ := poll_keeps { s with rxq := ⟨encode i, headData s.rxq⟩ :: s.rxq.tail }
    rw [if_pos hwait, pollFrame_eq_poll, poll_eq]
    exact ⟨rfl, rfl, rfl, rfl, rfl, rfl, rfl, rfl, rfl, rfl, rfl, ⟨es, hhist.symm⟩, poll_keeps_rsp_done⟩
  · rw [if_neg hwait]
    exact ⟨rfl, rfl, rfl, rfl, rfl, rfl, rfl, rfl, rfl, rfl, rfl, ⟨[], (List.append_nil _).symm⟩, fun _ => ⟨rfl, rfl⟩⟩

end Sys2Proof.Machine
